-- ==== Sys2Proof/Word.lean ====
section
/-! DEFINITION. The words of the block: nibbles, bytes, bus words, line names, levels, and the events of its trace. -/

namespace Sys2Proof

/-- A 4-bit half of a byte, one bus cycle (00_scope R14 'nibble'). -/
abbrev Nibble := BitVec 4

/-- A byte: the width of every request operand and of one transfer (00_scope R7). -/
abbrev Byte := BitVec 8

/-- A bus word {RS, B[7:0]}: bit 8 the RS level, bits 7:0 the byte (30_encoding R91). -/
abbrev BusWord := BitVec 9

/-- A platform line identifier, 8 bits unsigned as every request operand (00_scope R7; 92 D16): a name, only ever compared (10_state R24;
20_memory R76). -/
abbrev LineId := BitVec 8

/-- The two line levels (00_scope R9). -/
inductive Level where
  | low
  | high
  deriving DecidableEq, Repr, Inhabited

/-- The seven line roles (10_state R24, R26). BUSY is DATA3 (R25). -/
inductive Line where
  | rs
  | rw
  | e
  | data0
  | data1
  | data2
  | data3
  deriving DecidableEq, Repr

/-- A direction a line can be given (20_memory R61). -/
inductive Dir where
  | input
  | output
  deriving DecidableEq, Repr

/-- An element of the trace (30_encoding R94). -/
inductive Event where
  | dir (l : Line) (d : Dir)
  | set (l : Line) (v : Level)
  | get (l : Line) (v : Level)
  | wait (us : Nat)
  deriving DecidableEq, Repr

/-- The hardware variant: older or newer generation (10_state R23). -/
inductive Variant where
  | v1
  | v2
  deriving DecidableEq, Repr

/-- One value for each of the seven line roles. -/
structure PerLine (α : Type) where
  rs : α
  rw : α
  e : α
  data0 : α
  data1 : α
  data2 : α
  data3 : α
  deriving DecidableEq, Repr

end Sys2Proof
end

