-- ==== Sys2Proof/Machine/Flags.lean ====
section
/-! DEFINITION. The bits of the shadow registers: the fields of DISPCTL and ENTRY, setting and clearing one, and the bytes built from them. -/

namespace Sys2Proof.Machine

/-- `DISPCTL.D`, bit 2: display on (10_state R28; 90_conflicts C1). -/
def dispctlD : BitVec 3 := 0b100
/-- `DISPCTL.C`, bit 1: cursor on (R28). -/
def dispctlC : BitVec 3 := 0b010
/-- `DISPCTL.B`, bit 0: blink on (R28). -/
def dispctlB : BitVec 3 := 0b001
/-- `ENTRY.ID`, bit 1: left to right, increment (10_state R29). -/
def entryID : BitVec 2 := 0b10
/-- `ENTRY.S`, bit 0: autoscroll (R29). -/
def entryS : BitVec 2 := 0b01

/-- `REG.F <- 1`: the field of mask `m` set, every other bit kept (43_command_surface R193). -/
def setField {w : Nat} (m r : BitVec w) : BitVec w := r ||| m

/-- `REG.F <- 0`: the field of mask `m` cleared, every other bit kept (R194). -/
def clearField {w : Nat} (m r : BitVec w) : BitVec w := r &&& ~~~m

/-- `dispctlCmd = 0x08 | zext_8(DISPCTL)` (30_encoding R97). -/
def dispctlCmd (d : BitVec 3) : Byte := 0x08 ||| d.setWidth 8

/-- `entryCmd = 0x04 | zext_8(ENTRY)` (R98). -/
def entryCmd (t : BitVec 2) : Byte := 0x04 ||| t.setWidth 8

/-- `DISPCTL` after the power-on sequence: the low three bits of 0x0C (40_init_sequencer R136). -/
def dispctlAfterSequence : BitVec 3 := 0b100
/-- `ENTRY` after the power-on sequence: the low two bits of 0x06 (R136). -/
def entryAfterSequence : BitVec 2 := 0b10
/-- `FUNC` after the power-on sequence (R136; 10_state R27). -/
def funcAfterSequence : Byte := 0x28

end Sys2Proof.Machine
end

