-- ==== Sys2Proof/Config.lean ====
section
/-! DEFINITION. What is fixed for the machine: the constant table, the timing minima, the parameters, and the free value. -/

namespace Sys2Proof

/-- The parameters a model of the block takes as arguments and no step changes (00_scope R7, R8; 92 D3, D11, D20). -/
structure Params where
  /-- `DEFAULT_COLS`, OPEN. -/
  defaultCols : Byte
  /-- `DEFAULT_ROWS`, OPEN. -/
  defaultRows : Byte
  /-- `POLL_LIMIT`: `none` is the unbounded handshake, `some k` (k at least 1) the bounded one. -/
  pollLimit : Option Nat
  /-- `BUSY_LEVEL`: the level of BUSY that means busy. -/
  busyLevel : Level
  deriving DecidableEq, Repr

/-- The reference values of the parameters (92, 'Parameters a model takes as arguments'). DESIGN CHOICE, log 3. -/
def Config.referenceParams : Params :=
  { defaultCols := 16, defaultRows := 2, pollLimit := none, busyLevel := .high }

/-- `ROW_OFFSETS`, the DDRAM base address of each row (10_state R33). -/
def Config.rowOffsets : List Byte := [0x00, 0x40, 0x14, 0x54]

/-- `T_POWER`, power-on step 1 (70_reset_and_hazards R283). -/
def Config.tPower : Nat := 50000
/-- `T_INIT`, after each of the power-on steps 3 to 8 (R283). -/
def Config.tInit : Nat := 5000
/-- `T_SETUP`, data lines to E High (R283). -/
def Config.tSetup : Nat := 50
/-- `T_PULSE`, E High width (R283). -/
def Config.tPulse : Nat := 50
/-- `T_STATUS`, E High to busy sample (R283). -/
def Config.tStatus : Nat := 10

/-- FREE VALUE: what the display device answers when nothing fixes its answer; `Device.answer(TRACE, l)` of
20_memory R63, "any level may come at any sample" (60_exceptions R250; 93 U1). No body: nothing can be proved of it. Log 4. -/
opaque Config.deviceAnswer : List Event → Line → Level

end Sys2Proof
end

