-- ==== Sys2Proof/Syntax.lean ====
section
/-! DEFINITION. The syntax: every row of spec/opcode_table.json a constructor, what the host can offer, and why an offer is not a request. -/

namespace Sys2Proof

/-- CREATE_CHAR's operand `bitmap: u8[8]`, exactly eight bytes (43_command_surface R205; 93 U7). -/
structure Bitmap where
  b0 : Byte
  b1 : Byte
  b2 : Byte
  b3 : Byte
  b4 : Byte
  b5 : Byte
  b6 : Byte
  b7 : Byte
  deriving DecidableEq, Repr

/-- The 20 host requests and the 5 internal procedures (30_encoding R90; opcode_table.json). -/
inductive Instr where
  /-- CONSTRUCT (40_init_sequencer R130). -/
  | construct (ver : Byte) (rs rw e d0 d1 d2 d3 : LineId)
  /-- BEGIN (R131). -/
  | beginInit (cols rows : Byte)
  /-- COMMAND (41_transfer R153). -/
  | command (v : Byte)
  /-- WRITE (R154). -/
  | write (v : Byte)
  /-- CLEAR (43_command_surface R190). -/
  | clear
  /-- HOME (R191). -/
  | home
  /-- SET_CURSOR (R192). -/
  | setCursor (col row : Byte)
  /-- DISPLAY (R193). -/
  | display
  /-- NO_DISPLAY (R194). -/
  | noDisplay
  /-- CURSOR (R195). -/
  | cursor
  /-- NO_CURSOR (R196). -/
  | noCursor
  /-- BLINK (R197). -/
  | blink
  /-- NO_BLINK (R198). -/
  | noBlink
  /-- SCROLL_DISPLAY_LEFT (R199). -/
  | scrollDisplayLeft
  /-- SCROLL_DISPLAY_RIGHT (R200). -/
  | scrollDisplayRight
  /-- LEFT_TO_RIGHT (R201). -/
  | leftToRight
  /-- RIGHT_TO_LEFT (R202). -/
  | rightToLeft
  /-- AUTOSCROLL (R203). -/
  | autoscroll
  /-- NO_AUTOSCROLL (R204). -/
  | noAutoscroll
  /-- CREATE_CHAR (R205). -/
  | createChar (slot : Byte) (bitmap : Bitmap)
  /-- WRITE4BITS, internal (41_transfer R150). -/
  | write4bits (n : Nibble)
  /-- PULSE_ENABLE, internal (R151). -/
  | pulseEnable
  /-- SEND, internal (R152). -/
  | send (v : Byte) (mode : Level)
  /-- WAIT_FOR_READY, internal (42_handshake R170). -/
  | waitForReady
  /-- POWER_ON_SEQUENCE, internal (40_init_sequencer R132). -/
  | powerOnSequence (cols rows : Byte)
  deriving DecidableEq, Repr

/-- Why something the host offers is not a request: the decoder's rejections, by name. -/
inductive DecodeError where
  /-- A character outside R104's syntax. -/
  | badCharacter (c : Char)
  /-- The first word is no mnemonic of R90. -/
  | unknownMnemonic (w : List Char)
  /-- The operands are not the number or shape R90 and R104 give this request. -/
  | badOperands
  /-- A word that is not a number of R104 where a number is due. -/
  | badNumber (w : List Char)
  /-- A number above 255 for an 8-bit operand (92 D16). -/
  | operandTooWide (n : Nat)
  /-- A bitmap of other than eight bytes (93 U7: refused at the request boundary). -/
  | bitmapLength (n : Nat)
  /-- A table word with a bit above bit 8 of its first bus word: no bus word (30_encoding R91). -/
  | notABusWord
  deriving DecidableEq, Repr

/-- What the host puts before the block: an abstract request (92 D2), a line of R104's text, or a word of the
opcode table (R106), `nbits` bits of value `w`. -/
inductive Offer where
  | request (i : Instr)
  | text (cs : List Char)
  | tableWord (nbits w : Nat)
  deriving DecidableEq, Repr

end Sys2Proof
end

