-- ==== Sys2Proof/Machine/Operands.lean ====
section
/-! DEFINITION. Every operand form: nibbles, levels, the row clamp, the slot mask, the variant code, the bus word, the line map check, the device address maps. -/

namespace Sys2Proof.Machine

/-- `v[7:4]`, sent first (20_memory R67). -/
def highNibble (v : Byte) : Nibble := v.extractLsb' 4 4

/-- `v[3:0]`, sent second; also what WRITE4BITS takes of a byte (R67; 41_transfer R150). -/
def lowNibble (v : Byte) : Nibble := v.extractLsb' 0 4

/-- `n[i] = 1 ? High : Low`: the level of data line DATAi (20_memory R66; 41_transfer R150). -/
def nibbleLevel (n : Nibble) (i : Nat) : Level := if n.getLsbD i then .high else .low

/-- `{RS, B[7:0]}` (30_encoding R91): Low is 0, High is 1. -/
def busWord (mode : Level) (v : Byte) : BusWord :=
  (match mode with
   | .low => 0#1
   | .high => 1#1) ++ v

/-- The RS level of a bus word. -/
def busWordMode (w : BusWord) : Level := if w.getLsbD 8 then .high else .low

/-- The byte of a bus word. -/
def busWordByte (w : BusWord) : Byte := w.extractLsb' 0 8

/-- `effRow`: a row at or beyond NUMLINES is row 0 (30_encoding R95). -/
def effRow (numLines row : Byte) : Byte := if numLines ≤ row then 0 else row

/-- The entry of `ROW_OFFSETS` for a row, absent from row 4 on (10_state R33). -/
def rowOffset (r : Byte) : Option Byte := Config.rowOffsets[r.toNat]?

/-- The set-DDRAM-address byte for an offset and a column: the sum wraps at 256, then bit 7 is set (R95; 92 D16). -/
def ddramByte (off col : Byte) : Byte := 0x80 ||| (col + off)

/-- `ddramCmd(col, row)`, absent where `effRow(row) >= 4` (R95; 92 D17). -/
def ddramCmd (numLines col row : Byte) : Option Byte :=
  (rowOffset (effRow numLines row)).map fun off => ddramByte off col

/-- `effSlot = slot & 0x07` (R96). -/
def effSlot (slot : Byte) : Byte := slot &&& 0x07

/-- `cgramCmd = 0x40 | (effSlot << 3)` (R96). -/
def cgramCmd (slot : Byte) : Byte := 0x40 ||| (effSlot slot <<< 3)

/-- `ver = 1` is V1, every other value V2 (R100). -/
def decodeVariant (ver : Byte) : Variant := if ver = 1 then .v1 else .v2

/-- The bitmap's bytes in index order 0 to 7 (43_command_surface R205). -/
def bitmapBytes (b : Bitmap) : List Byte := [b.b0, b.b1, b.b2, b.b3, b.b4, b.b5, b.b6, b.b7]

/-- The ids that occur more than once, each once (60_exceptions R242: "the duplicated ids"). DESIGN CHOICE, log 24: the list's order, which the
spec does not give, is that of each id's last occurrence but one. -/
def duplicatedIds : List LineId → List LineId
  | [] => []
  | x :: xs => if x ∈ xs ∧ x ∉ duplicatedIds xs then x :: duplicatedIds xs else duplicatedIds xs

/-- The seven ids of a line map in the order RS, RW, E, DATA0 to DATA3. -/
def perLineList {α : Type} (p : PerLine α) : List α :=
  [p.rs, p.rw, p.e, p.data0, p.data1, p.data2, p.data3]

/-- The DDRAM address of column `c` of row `r` (20_memory R74), absent from row 4 on. -/
def ddramAddress (r c : Byte) : Option Byte := (rowOffset r).map fun off => c + off

/-- The CGRAM address of pixel row `k` of glyph slot `s` (20_memory R75): `(s << 3) + k`. -/
def cgramAddress (s k : Nat) : Nat := s * 8 + k

end Sys2Proof.Machine
end

