-- ==== Sys2Proof/WellFormed.lean ====
section
/-! DEFINITION. Which terms of `Instr` the host may issue. -/

namespace Sys2Proof

/-- The term is one of the 20 host requests; the five internal procedures "are not host requests" (30_encoding R90).
Operand widths and the bitmap's length are in the types, so nothing else is to be checked: "No request is illegal on
account of its operands" (R101). -/
def Instr.wellFormed : Instr → Bool
  | .construct _ _ _ _ _ _ _ _ => true
  | .beginInit _ _ => true
  | .command _ => true
  | .write _ => true
  | .clear => true
  | .home => true
  | .setCursor _ _ => true
  | .display => true
  | .noDisplay => true
  | .cursor => true
  | .noCursor => true
  | .blink => true
  | .noBlink => true
  | .scrollDisplayLeft => true
  | .scrollDisplayRight => true
  | .leftToRight => true
  | .rightToLeft => true
  | .autoscroll => true
  | .noAutoscroll => true
  | .createChar _ _ => true
  | .write4bits _ => false
  | .pulseEnable => false
  | .send _ _ => false
  | .waitForReady => false
  | .powerOnSequence _ _ => false

end Sys2Proof
end

