-- ==== Sys2Proof/Decode.lean ====
section
/-! DEFINITION. The decoder and the encoder: the text of a request (30_encoding R104), and the bus words of the opcode table (R91, R106). -/

namespace Sys2Proof

/-! ## The text of a request (30_encoding R104) -/

/-- A token of R104's syntax. -/
inductive Token where
  | word (cs : List Char)
  | comma
  | openBracket
  | closeBracket
  deriving DecidableEq, Repr

/-- The characters of R104's words: the mnemonics' capitals and `_` (R90), the digits of both bases, the `x` of `0x`, and the small letters of
95's line names. -/
def wordChars : List Char := "_ABCDEFGHIJKLMNOPQRSTUVWXYZabcdefghijklmnopqrstuvwxyz0123456789".toList

/-- The character belongs to a word. -/
def isWordChar (c : Char) : Bool := wordChars.contains c

/-- The word read so far, if any, before the tokens that follow it. -/
def flushWord (acc : List Char) (ts : List Token) : List Token :=
  match acc with
  | [] => ts
  | _ :: _ => .word acc.reverse :: ts

/-- The tokens of a text, `acc` being the characters of the word in progress, last first. -/
def lexAux : List Char → List Char → Except DecodeError (List Token)
  | [], acc => .ok (flushWord acc [])
  | c :: cs, acc =>
    if isWordChar c then lexAux cs (c :: acc)
    else if c = ' ' then (lexAux cs []).map (flushWord acc)
    else if c = ',' then (lexAux cs []).map fun ts => flushWord acc (.comma :: ts)
    else if c = '[' then (lexAux cs []).map fun ts => flushWord acc (.openBracket :: ts)
    else if c = ']' then (lexAux cs []).map fun ts => flushWord acc (.closeBracket :: ts)
    else .error (.badCharacter c)

/-- The tokens of a text. -/
def lex (cs : List Char) : Except DecodeError (List Token) := lexAux cs []

/-- The digits of R104's numbers in order of value: the first ten are the decimal ones, all sixteen the hexadecimal ones. -/
def digitChars : List Char := "0123456789ABCDEF".toList

/-- The same digits, the last six as small letters. -/
def smallDigitChars : List Char := "0123456789abcdef".toList

/-- The value of a digit: its place in the order. -/
def digitValue (c : Char) : Option Nat := (digitChars.idxOf? c).or (smallDigitChars.idxOf? c)

/-- The digit of a value below 16. -/
def digitChar (n : Nat) : Char := digitChars.getD n '0'

/-- Digits in a base, most significant first, after the value `acc`. -/
def digitsValue (base : Nat) : List Char → Nat → Option Nat
  | [], acc => some acc
  | c :: cs, acc =>
    match digitValue c with
    | some d => if d < base then digitsValue base cs (acc * base + d) else none
    | none => none

/-- A number: "decimal or `0x` hexadecimal" (R104). -/
def parseNumber (w : List Char) : Except DecodeError Nat :=
  let value :=
    match w with
    | '0' :: 'x' :: c :: cs => digitsValue 16 (c :: cs) 0
    | c :: cs => digitsValue 10 (c :: cs) 0
    | [] => none
  match value with
  | some n => .ok n
  | none => .error (.badNumber w)

/-- An 8-bit operand (92 D16). -/
def parseByte (w : List Char) : Except DecodeError Byte :=
  match parseNumber w with
  | .ok n => if n < 256 then .ok (BitVec.ofNat 8 n) else .error (.operandTooWide n)
  | .error e => .error e

/-- A platform line id, an 8-bit operand too (92 D16): `p` and its number, as 95 writes them, or a number; the seven operand names of R104's
own CONSTRUCT example stand for the ids 0 to 6 (log 10). -/
def parseLineId (w : List Char) : Except DecodeError LineId :=
  match w with
  | ['r', 's'] => .ok 0
  | ['r', 'w'] => .ok 1
  | ['e'] => .ok 2
  | ['d', '0'] => .ok 3
  | ['d', '1'] => .ok 4
  | ['d', '2'] => .ok 5
  | ['d', '3'] => .ok 6
  | 'p' :: ds =>
    match parseByte ds with
    | .ok n => .ok n
    | .error (.operandTooWide n) => .error (.operandTooWide n)
    | .error _ => .error (.badNumber w)
  | _ => parseByte w

/-- One or more words separated by commas. -/
def commaWords : List Token → Except DecodeError (List (List Char))
  | [.word w] => .ok [w]
  | .word w :: .comma :: rest => (commaWords rest).map (w :: ·)
  | _ => .error .badOperands

/-- Eight bytes of a bitmap; any other number is refused (93 U7). -/
def parseBitmap (ws : List (List Char)) : Except DecodeError Bitmap := do
  match ws with
  | [w0, w1, w2, w3, w4, w5, w6, w7] =>
    let b0 ← parseByte w0
    let b1 ← parseByte w1
    let b2 ← parseByte w2
    let b3 ← parseByte w3
    let b4 ← parseByte w4
    let b5 ← parseByte w5
    let b6 ← parseByte w6
    let b7 ← parseByte w7
    .ok { b0, b1, b2, b3, b4, b5, b6, b7 }
  | _ => .error (.bitmapLength ws.length)

/-- The operands of CREATE_CHAR: `slot, [b0, ..., b7]`. -/
def parseCreateChar (ts : List Token) : Except DecodeError Instr := do
  match ts with
  | .word s :: .comma :: .openBracket :: rest =>
    match rest.reverse with
    | .closeBracket :: inside =>
      let slot ← parseByte s
      let ws ← if inside = [] then .ok [] else commaWords inside.reverse
      let bitmap ← parseBitmap ws
      .ok (.createChar slot bitmap)
    | _ => .error .badOperands
  | _ => .error .badOperands

/-- The two bytes of a request of two operands. -/
def parseTwo (f : Byte → Byte → Instr) (ts : List Token) : Except DecodeError Instr := do
  match (← commaWords ts) with
  | [w0, w1] =>
    let a ← parseByte w0
    let b ← parseByte w1
    .ok (f a b)
  | _ => .error .badOperands

/-- The byte of a request of one operand. -/
def parseOne (f : Byte → Instr) (ts : List Token) : Except DecodeError Instr := do
  match (← commaWords ts) with
  | [w] =>
    let a ← parseByte w
    .ok (f a)
  | _ => .error .badOperands

/-- "Requests with no operands are the bare mnemonic" (R104). -/
def parseNone (i : Instr) (ts : List Token) : Except DecodeError Instr :=
  match ts with
  | [] => .ok i
  | _ :: _ => .error .badOperands

/-- The operands of CONSTRUCT. -/
def parseConstruct (ts : List Token) : Except DecodeError Instr := do
  match (← commaWords ts) with
  | [v, w0, w1, w2, w3, w4, w5, w6] =>
    let ver ← parseByte v
    let rs ← parseLineId w0
    let rw ← parseLineId w1
    let e ← parseLineId w2
    let d0 ← parseLineId w3
    let d1 ← parseLineId w4
    let d2 ← parseLineId w5
    let d3 ← parseLineId w6
    .ok (.construct ver rs rw e d0 d1 d2 d3)
  | _ => .error .badOperands

/-- The request a mnemonic and its operands write: the 20 rows of R90, and no internal procedure. -/
def parseRequest (mnemonic : List Char) (ts : List Token) : Except DecodeError Instr :=
  match String.ofList mnemonic with
  | "CONSTRUCT" => parseConstruct ts
  | "BEGIN" => parseTwo .beginInit ts
  | "COMMAND" => parseOne .command ts
  | "WRITE" => parseOne .write ts
  | "CLEAR" => parseNone .clear ts
  | "HOME" => parseNone .home ts
  | "SET_CURSOR" => parseTwo .setCursor ts
  | "DISPLAY" => parseNone .display ts
  | "NO_DISPLAY" => parseNone .noDisplay ts
  | "CURSOR" => parseNone .cursor ts
  | "NO_CURSOR" => parseNone .noCursor ts
  | "BLINK" => parseNone .blink ts
  | "NO_BLINK" => parseNone .noBlink ts
  | "SCROLL_DISPLAY_LEFT" => parseNone .scrollDisplayLeft ts
  | "SCROLL_DISPLAY_RIGHT" => parseNone .scrollDisplayRight ts
  | "LEFT_TO_RIGHT" => parseNone .leftToRight ts
  | "RIGHT_TO_LEFT" => parseNone .rightToLeft ts
  | "AUTOSCROLL" => parseNone .autoscroll ts
  | "NO_AUTOSCROLL" => parseNone .noAutoscroll ts
  | "CREATE_CHAR" => parseCreateChar ts
  | _ => .error (.unknownMnemonic mnemonic)

/-- The request a text writes: "its mnemonic followed by its operands, separated by commas" (R104). Total; it rejects by name. -/
def decode (cs : List Char) : Except DecodeError Instr := do
  match (← lex cs) with
  | .word m :: ts => parseRequest m ts
  | _ => .error (.unknownMnemonic [])

/-- A byte in the `0x` form of R104. -/
def encodeByte (v : Byte) : List Char :=
  ['0', 'x', digitChar (Machine.highNibble v).toNat, digitChar (Machine.lowNibble v).toNat]

/-- The decimal digits of `n` before the digits `acc`; `fuel` bounds their number. -/
def decimalDigits : Nat → Nat → List Char → List Char
  | 0, _, acc => acc
  | fuel + 1, n, acc =>
    let ds := digitChar (n % 10) :: acc
    if n / 10 = 0 then ds else decimalDigits fuel (n / 10) ds

/-- A platform line id as 95 writes them, `p0` to `p255`: three digits at most. -/
def encodeLineId (n : LineId) : List Char := 'p' :: decimalDigits 3 n.toNat []

/-- Words separated by a comma and a space. -/
def joinCommas : List (List Char) → List Char
  | [] => []
  | [w] => w
  | w :: w' :: ws => w ++ [',', ' '] ++ joinCommas (w' :: ws)

/-- The text of a host request (R104); none of an internal procedure, which is no request (R90). -/
def encode : Instr → Option (List Char)
  | .construct ver rs rw e d0 d1 d2 d3 =>
    some ("CONSTRUCT ".toList ++ joinCommas
      [encodeByte ver, encodeLineId rs, encodeLineId rw, encodeLineId e, encodeLineId d0, encodeLineId d1,
       encodeLineId d2, encodeLineId d3])
  | .beginInit cols rows => some ("BEGIN ".toList ++ joinCommas [encodeByte cols, encodeByte rows])
  | .command v => some ("COMMAND ".toList ++ encodeByte v)
  | .write v => some ("WRITE ".toList ++ encodeByte v)
  | .clear => some "CLEAR".toList
  | .home => some "HOME".toList
  | .setCursor col row => some ("SET_CURSOR ".toList ++ joinCommas [encodeByte col, encodeByte row])
  | .display => some "DISPLAY".toList
  | .noDisplay => some "NO_DISPLAY".toList
  | .cursor => some "CURSOR".toList
  | .noCursor => some "NO_CURSOR".toList
  | .blink => some "BLINK".toList
  | .noBlink => some "NO_BLINK".toList
  | .scrollDisplayLeft => some "SCROLL_DISPLAY_LEFT".toList
  | .scrollDisplayRight => some "SCROLL_DISPLAY_RIGHT".toList
  | .leftToRight => some "LEFT_TO_RIGHT".toList
  | .rightToLeft => some "RIGHT_TO_LEFT".toList
  | .autoscroll => some "AUTOSCROLL".toList
  | .noAutoscroll => some "NO_AUTOSCROLL".toList
  | .createChar slot bitmap =>
    some ("CREATE_CHAR ".toList ++ encodeByte slot ++ ", [".toList
      ++ joinCommas ((Machine.bitmapBytes bitmap).map encodeByte) ++ [']'])
  | .write4bits _ => none
  | .pulseEnable => none
  | .send _ _ => none
  | .waitForReady => none
  | .powerOnSequence _ _ => none

/-! ## The bus words of the opcode table (30_encoding R91, R106) -/

/-- A row's `match` and `mask` over the 9-bit bus word, and the request read from a word that matches. -/
structure Row where
  mask : BusWord
  pattern : BusWord
  request : Instr
  deriving DecidableEq, Repr

/-- The word is one of the row's. -/
def rowMatches (w : BusWord) (r : Row) : Bool := w &&& r.mask == r.pattern

/-- The `match` and `mask` of the instruction's row in opcode_table.json; none where the table gives null. -/
def tableRow : Instr → Option (BusWord × BusWord)
  | .construct _ _ _ _ _ _ _ _ => none
  | .beginInit _ _ => none
  | .command _ => some (0x000, 0x100)
  | .write _ => some (0x100, 0x100)
  | .clear => some (0x001, 0x1FF)
  | .home => some (0x002, 0x1FF)
  | .setCursor _ _ => some (0x080, 0x180)
  | .display => some (0x00C, 0x1FC)
  | .noDisplay => some (0x008, 0x1FC)
  | .cursor => some (0x00A, 0x1FA)
  | .noCursor => some (0x008, 0x1FA)
  | .blink => some (0x009, 0x1F9)
  | .noBlink => some (0x008, 0x1F9)
  | .scrollDisplayLeft => some (0x018, 0x1FF)
  | .scrollDisplayRight => some (0x01C, 0x1FF)
  | .leftToRight => some (0x006, 0x1FE)
  | .rightToLeft => some (0x004, 0x1FE)
  | .autoscroll => some (0x005, 0x1FD)
  | .noAutoscroll => some (0x004, 0x1FD)
  | .createChar _ _ => some (0x040, 0x1C7)
  | .write4bits _ => none
  | .pulseEnable => none
  | .send _ _ => some (0x000, 0x000)
  | .waitForReady => none
  | .powerOnSequence _ _ => none

/-- The bitmap of eight following data words, given by their bytes; a byte not given is 0. -/
def operandBitmap (bs : List Byte) : Bitmap :=
  { b0 := bs.getD 0 0, b1 := bs.getD 1 0, b2 := bs.getD 2 0, b3 := bs.getD 3 0,
    b4 := bs.getD 4 0, b5 := bs.getD 5 0, b6 := bs.getD 6 0, b7 := bs.getD 7 0 }

/-- The requests one bus word may stand for, one for each request row of the opcode table, `bs` being the bytes of the data words that
follow it. SET_CURSOR's `a` is read as column a of row 0 (one of the pairs that give it), CREATE_CHAR's `sss` as the slot.
The order is the model's, log 8: the most special words first, a field set before a field cleared, the raw requests last. -/
def requestRows (w : BusWord) (bs : List Byte) : List Row :=
  [ ⟨0x1FF, 0x001, .clear⟩, ⟨0x1FF, 0x002, .home⟩,
    ⟨0x1FF, 0x018, .scrollDisplayLeft⟩, ⟨0x1FF, 0x01C, .scrollDisplayRight⟩,
    ⟨0x1FC, 0x00C, .display⟩, ⟨0x1FA, 0x00A, .cursor⟩, ⟨0x1F9, 0x009, .blink⟩,
    ⟨0x1FC, 0x008, .noDisplay⟩, ⟨0x1FA, 0x008, .noCursor⟩, ⟨0x1F9, 0x008, .noBlink⟩ ]
  ++ [ ⟨0x1FE, 0x006, .leftToRight⟩, ⟨0x1FD, 0x005, .autoscroll⟩,
       ⟨0x1FE, 0x004, .rightToLeft⟩, ⟨0x1FD, 0x004, .noAutoscroll⟩,
       ⟨0x180, 0x080, .setCursor ((w.extractLsb' 0 7).setWidth 8) 0⟩,
       ⟨0x1C7, 0x040, .createChar ((w.extractLsb' 3 3).setWidth 8) (operandBitmap bs)⟩,
       ⟨0x100, 0x000, .command (Machine.busWordByte w)⟩, ⟨0x100, 0x100, .write (Machine.busWordByte w)⟩ ]

/-- "Such a word decodes to the set of requests that emit it" (30_encoding R106). -/
def decodeBusWord (w : BusWord) (bs : List Byte) : List Instr :=
  ((requestRows w bs).filter (rowMatches w)).map Row.request

/-- The bytes of the `k` 16-bit words of `x`, lowest first: the data words that follow a first bus word. DESIGN CHOICE, log 21: of each word
the low 8 bits are taken, whatever its bit 8 (RS) and bits 15..9 hold; R205 gives these words as `1 bbbbbbbb`, and R106's mask covers the
first word only. -/
def wordBytes : Nat → Nat → List Byte
  | 0, _ => []
  | k + 1, x => BitVec.ofNat 8 x :: wordBytes k (x / 65536)

/-- The request the decoder reads from `nbits` bits of value `w`, numbered as the opcode table numbers them: the first bus word in bits
15..0 (bits 15..9 zero), the following data words 16 bits each, absent ones zero (log 8), their bits above 7 not looked at (log 21). Of a
shared word the first request of `requestRows` (log 8). DESIGN CHOICE, log 23: a word after those the request has (after CREATE_CHAR's
eight data words, or after the one word of any other request) is not looked at. -/
def decodeTableWord (nbits w : Nat) : Option Instr :=
  let x := w % 2 ^ nbits
  if x % 65536 < 512 then
    (decodeBusWord (BitVec.ofNat 9 x) (wordBytes 8 (x / 65536))).head?
  else none

/-- The bus words an instruction sends, in order, on a block with these registers (30_encoding R99, R105; 40_init_sequencer R135):
the encoder of the bus side. A SET_CURSOR without a `ROW_OFFSETS` entry sends none (R95). -/
def busWords (numLines : Byte) (dispctl : BitVec 3) (entry : BitVec 2) (i : Instr) : List BusWord :=
  match i with
  | .construct _ _ _ _ _ _ _ _ => [0x008, 0x001, 0x006, 0x002, 0x00C]
  | .beginInit _ _ => [0x008, 0x001, 0x006, 0x002, 0x00C]
  | .command v => [Machine.busWord .low v]
  | .write v => [Machine.busWord .high v]
  | .clear => [0x001]
  | .home => [0x002]
  | .setCursor col row => ((Machine.ddramCmd numLines col row).map (Machine.busWord .low)).toList
  | .display => [Machine.busWord .low (Machine.dispctlCmd (Machine.setField Machine.dispctlD dispctl))]
  | .noDisplay => [Machine.busWord .low (Machine.dispctlCmd (Machine.clearField Machine.dispctlD dispctl))]
  | .cursor => [Machine.busWord .low (Machine.dispctlCmd (Machine.setField Machine.dispctlC dispctl))]
  | .noCursor => [Machine.busWord .low (Machine.dispctlCmd (Machine.clearField Machine.dispctlC dispctl))]
  | .blink => [Machine.busWord .low (Machine.dispctlCmd (Machine.setField Machine.dispctlB dispctl))]
  | .noBlink => [Machine.busWord .low (Machine.dispctlCmd (Machine.clearField Machine.dispctlB dispctl))]
  | .scrollDisplayLeft => [0x018]
  | .scrollDisplayRight => [0x01C]
  | .leftToRight => [Machine.busWord .low (Machine.entryCmd (Machine.setField Machine.entryID entry))]
  | .rightToLeft => [Machine.busWord .low (Machine.entryCmd (Machine.clearField Machine.entryID entry))]
  | .autoscroll => [Machine.busWord .low (Machine.entryCmd (Machine.setField Machine.entryS entry))]
  | .noAutoscroll => [Machine.busWord .low (Machine.entryCmd (Machine.clearField Machine.entryS entry))]
  | .createChar slot bitmap =>
    Machine.busWord .low (Machine.cgramCmd slot) :: (Machine.bitmapBytes bitmap).map (Machine.busWord .high)
  | .write4bits _ => []
  | .pulseEnable => []
  | .send v mode => [Machine.busWord mode v]
  | .waitForReady => []
  | .powerOnSequence _ _ => [0x008, 0x001, 0x006, 0x002, 0x00C]

end Sys2Proof
end

