-- ==== Sys2Proof/Machine/State.lean ====
section
/-! DEFINITION. The state of the block and of the two agents around it, as plain data, and the state before CONSTRUCT. -/

namespace Sys2Proof.Machine

/-- `dir(l)` (10_state R26). -/
inductive DirState where
  | unconfigured
  | input
  | output
  deriving DecidableEq, Repr

/-- `lvl(l)`: the level the block drives (10_state R26). `unknown` is the spec's own third value (92 D19). -/
inductive DriveLevel where
  | low
  | high
  | unknown
  deriving DecidableEq, Repr

/-- One line: its direction and the level driven on it. -/
structure LineState where
  dir : DirState
  lvl : DriveLevel
  deriving DecidableEq, Repr

/-- The four line primitives (00_scope R11; 20_memory R60). -/
inductive Prim where
  | dir (l : Line) (d : Dir)
  | set (l : Line) (v : Level)
  | get (l : Line)
  | wait (us : Nat)
  deriving DecidableEq, Repr

/-- One entry of a microprogram (10_state R22): a primitive, which is one step and one event, or a statement of the
pseudocode that emits no event and is performed with the event before it. -/
inductive Op where
  /-- A primitive. -/
  | bus (p : Prim)
  /-- `NUMCOLS <- cols; NUMLINES <- rows; CURLINE <- 0` (40_init_sequencer R132 step 0). -/
  | geometry (cols rows : Byte)
  /-- `FUNC <- 0x28; DISPCTL <- 0b100; ENTRY <- 0b10` (R132 step 9). -/
  | shadows
  /-- `POLLS <- 0`, only if POLL_LIMIT is not none (42_handshake R170). -/
  | clearPolls
  /-- The end of a poll iteration: repeat, give up or leave (R170). -/
  | pollDecide
  /-- `raise DeviceNotResponding()` (R177). -/
  | raiseNotResponding
  /-- `RESULT <- 1; return 1` (41_transfer R154). -/
  | returnOne
  deriving DecidableEq, Repr

/-- `SEQ` (10_state R34). `rest` is the position p: what remains of the microprogram of `q`, the next event first
(92 D1: "Running with the remaining procedure"). `busy` is the handshake's local b (R35): it lives from the sample to
the end of its iteration and is no register. -/
inductive Seq where
  | idle
  | running (q : Instr) (rest : List Op) (busy : Option Level)
  deriving DecidableEq, Repr

/-- `RESULT` (10_state R37; 60_exceptions R243). -/
inductive Result where
  | empty
  | value (v : Byte)
  | deviceNotResponding
  deriving DecidableEq, Repr

/-- The faults of 60_exceptions R242. They are recorded in `State.records`: the spec ends the request, leaves SEQ Idle
and lets the block go on (R242; 95 P5), so no step of the model stops with one. -/
inductive Fault where
  /-- Raised by SET_CURSOR with `4 <= row < NUMLINES`, before any event (43_command_surface R192). Safe: the spec's own choice 92 D17. -/
  | rowOffsetOutOfTable (row : Byte)
  /-- Raised by the primitive LineSet on a line that is not an output (20_memory R62). Safe; no run from reset reaches it. -/
  | lineNotOutput (l : Line)
  /-- Raised by the primitive LineGet on a line that is not an input (R63). Safe; no run from reset reaches it. -/
  | lineNotInput (l : Line)
  deriving DecidableEq, Repr

/-- The refusals. The three of 60_exceptions R242 are recorded in `State.records` and the block goes on; the others end a step. -/
inductive Refusal where
  /-- Raised by an arm of exec without a meaning: none is left. Safe. -/
  | notModelled (mnemonic : String)
  /-- Raised by step where the host offers one of the five internal procedures, which "are not host requests" (30_encoding R90). Safe. -/
  | notARequest (i : Instr)
  /-- Raised by step where what the host offers decodes to no request (30_encoding R91, R104; 93 U7). Safe. -/
  | badOffer (e : DecodeError)
  /-- Recorded by CONSTRUCT with two roles on one platform line (40_init_sequencer R130; 92 D18). Safe. -/
  | duplicateLine (ids : List LineId)
  /-- Recorded by CONSTRUCT on a block already built (92 D28). Safe. -/
  | constructTwice
  /-- Recorded by any other request before CONSTRUCT (70_reset_and_hazards R272). Safe. -/
  | notConstructed (request : Instr)
  deriving DecidableEq, Repr

/-- An outcome of 60_exceptions R242, "recorded for good". -/
inductive Record where
  | fault (f : Fault)
  | refusal (r : Refusal)
  deriving DecidableEq, Repr

/-- The display device agent, as far as the block can see it: what it answers (60_exceptions R250). -/
inductive Device where
  /-- It gives these answers, the next one first; after them every answer is the free value `Config.deviceAnswer`. -/
  | script (answers : List Level)
  /-- Miswired or absent: BUSY reads one fixed level for ever (R250; 70_reset_and_hazards R282). -/
  | stuck (v : Level)
  deriving DecidableEq, Repr

/-- Everything the spec gives the machine (10_state R20), then the parameters and the two other agents (log 3, 4, 5). -/
structure State where
  /-- Whether CONSTRUCT has built the block (70_reset_and_hazards R272; 92 D28). -/
  constructed : Bool
  /-- `VARIANT` (10_state R23). -/
  variant : Variant
  /-- `LINE_MAP` (R24). -/
  lineMap : PerLine LineId
  /-- `dir(l)` and `lvl(l)` (R26). -/
  lines : PerLine LineState
  /-- `FUNC` (R27). -/
  func : Byte
  /-- `DISPCTL` (R28). -/
  dispctl : BitVec 3
  /-- `ENTRY` (R29). -/
  entry : BitVec 2
  /-- `NUMCOLS` (R31). -/
  numCols : Byte
  /-- `NUMLINES` (R31). -/
  numLines : Byte
  /-- `CURLINE` (R32). -/
  curLine : Byte
  /-- `SEQ` (R34). -/
  seq : Seq
  /-- `POLLS` (R36). -/
  polls : Nat
  /-- `RESULT` (R37). -/
  result : Result
  /-- `TRACE`, oldest event first (R38). -/
  trace : List Event
  /-- The outcomes of 60_exceptions R242 so far, oldest first. -/
  records : List Record
  /-- The parameters (00_scope R7); no step writes them. -/
  params : Params
  /-- The display device agent. -/
  device : Device
  /-- What the host still has to offer, the next offer first. -/
  host : List Offer
  deriving DecidableEq, Repr

/-- A line no one has configured (10_state R41). -/
def unconfiguredLine : LineState := { dir := .unconfigured, lvl := .unknown }

/-- All seven lines unconfigured (R41). -/
def unconfiguredLines : PerLine LineState :=
  { rs := unconfiguredLine, rw := unconfiguredLine, e := unconfiguredLine, data0 := unconfiguredLine,
    data1 := unconfiguredLine, data2 := unconfiguredLine, data3 := unconfiguredLine }

/-- The state before CONSTRUCT (70_reset_and_hazards R270, R272; 10_state R41). The spec gives no value for VARIANT, LINE_MAP, the
shadows, the geometry and POLLS: the values here are DESIGN CHOICES, logs 1 to 5. -/
def State.reset : State :=
  { constructed := false
    variant := .v2
    lineMap := { rs := 0, rw := 1, e := 2, data0 := 3, data1 := 4, data2 := 5, data3 := 6 }
    lines := unconfiguredLines
    func := 0
    dispctl := 0
    entry := 0
    numCols := 0
    numLines := 0
    curLine := 0
    seq := .idle
    polls := 0
    result := .empty
    trace := []
    records := []
    params := Config.referenceParams
    device := .script []
    host := [] }

end Sys2Proof.Machine
end

