-- ==== Sys2Proof/Machine/Microcode.lean ====
section
/-! DEFINITION. The microprograms of the five internal procedures: what each lays down as events and statements (10_state R22). -/

namespace Sys2Proof.Machine

/-- `LineDir(l, d)` as a microprogram entry. -/
abbrev opDir (l : Line) (d : Dir) : Op := .bus (.dir l d)
/-- `LineSet(l, v)` as a microprogram entry. -/
abbrev opSet (l : Line) (v : Level) : Op := .bus (.set l v)
/-- `LineGet(l)` as a microprogram entry. -/
abbrev opGet (l : Line) : Op := .bus (.get l)
/-- `Wait(us)` as a microprogram entry. -/
abbrev opWait (us : Nat) : Op := .bus (.wait us)

/-- PULSE_ENABLE (41_transfer R151). -/
def pulseEnableOps : List Op := [opSet .e .high, opWait Config.tPulse, opSet .e .low]

/-- WRITE4BITS(n) (41_transfer R150). -/
def write4bitsOps (n : Nibble) : List Op :=
  [opSet .data0 (nibbleLevel n 0), opSet .data1 (nibbleLevel n 1), opSet .data2 (nibbleLevel n 2),
   opSet .data3 (nibbleLevel n 3), opWait Config.tSetup] ++ pulseEnableOps

/-- One poll iteration (42_handshake R171). -/
def pollIterationOps : List Op :=
  [opSet .e .low, opSet .e .high, opWait Config.tStatus, opGet .data3, opSet .e .low] ++ pulseEnableOps

/-- The exit of the handshake (42_handshake R173). -/
def handshakeExitOps : List Op := [opDir .data3 .output, opSet .rw .low]

/-- WAIT_FOR_READY: entry, first iteration, and the decision that ends every iteration (42_handshake R170, R172). -/
def waitForReadyOps : List Op :=
  [opDir .data3 .input, opSet .rs .low, opSet .rw .high, .clearPolls] ++ pollIterationOps ++ [.pollDecide]

/-- SEND(v, mode) (41_transfer R152). -/
def sendOps (v : Byte) (mode : Level) : List Op :=
  [opSet .rs mode, opSet .rw .low] ++ write4bitsOps (highNibble v) ++ write4bitsOps (lowNibble v) ++ waitForReadyOps

/-- A lone nibble of power-on steps 3 to 7 with its fixed wait (40_init_sequencer R134). -/
def loneNibbleOps (n : Nibble) : List Op := write4bitsOps n ++ [opWait Config.tInit]

/-- A command of power-on step 8 with its fixed wait (40_init_sequencer R135). -/
def initCommandOps (v : Byte) : List Op := sendOps v .low ++ [opWait Config.tInit]

/-- The lone nibbles of steps 3 to 7: step 4 only on the newer variant (40_init_sequencer R134). -/
def loneNibbles : Variant → List Nibble
  | .v1 => [0x3, 0x2, 0x2, 0x8]
  | .v2 => [0x3, 0x8, 0x2, 0x2, 0x8]

/-- The five commands of step 8 (40_init_sequencer R135). -/
def initCommands : List Byte := [0x08, 0x01, 0x06, 0x02, 0x0C]

/-- Step 1: the control lines (40_init_sequencer R133; 92 D4, D5). -/
def controlLineOps : List Op :=
  [opDir .rs .output, opDir .rw .output, opDir .e .output,
   opSet .rs .low, opSet .e .low, opSet .rw .low, opWait Config.tPower]

/-- Step 2: the data lines (R133; 92 D5). -/
def dataLineOps : List Op :=
  [opDir .data0 .output, opSet .data0 .low, opDir .data1 .output, opSet .data1 .low,
   opDir .data2 .output, opSet .data2 .low, opDir .data3 .output, opSet .data3 .low]

/-- POWER_ON_SEQUENCE(cols, rows) on a block of the given variant (40_init_sequencer R132). -/
def powerOnOps (variant : Variant) (cols rows : Byte) : List Op :=
  [.geometry cols rows] ++ controlLineOps ++ dataLineOps ++ (loneNibbles variant).flatMap loneNibbleOps
    ++ initCommands.flatMap initCommandOps ++ [.shadows]

end Sys2Proof.Machine
end

