-- ==== Sys2Proof/Machine/Ops.lean ====
section
/-! DEFINITION. The named operations: lines, the four primitives, the sequencer that runs a microprogram, taking a request, the outcomes of 60_exceptions R242, and the host's offers. -/

namespace Sys2Proof.Machine

/-- The value of one line role. BUSY is read as DATA3 (10_state R25). -/
def PerLine.get {α : Type} (p : PerLine α) : Line → α
  | .rs => p.rs
  | .rw => p.rw
  | .e => p.e
  | .data0 => p.data0
  | .data1 => p.data1
  | .data2 => p.data2
  | .data3 => p.data3

/-- The record with one line role's value replaced. -/
def PerLine.put {α : Type} (p : PerLine α) (l : Line) (x : α) : PerLine α :=
  match l with
  | .rs => { p with rs := x }
  | .rw => { p with rw := x }
  | .e => { p with e := x }
  | .data0 => { p with data0 := x }
  | .data1 => { p with data1 := x }
  | .data2 => { p with data2 := x }
  | .data3 => { p with data3 := x }

/-- The direction state a `LineDir` gives. -/
def dirState : Dir → DirState
  | .input => .input
  | .output => .output

/-- The drive level a `LineSet` gives. -/
def driveLevel : Level → DriveLevel
  | .low => .low
  | .high => .high

/-! Named updates of the state. -/

/-- `TRACE <- TRACE ++ [ev]` (20_memory R60). -/
def State.appendEvent (ev : Event) (s : State) : State := { s with trace := s.trace ++ [ev] }
/-- The line state replaced. -/
def State.withLines (c : PerLine LineState) (s : State) : State := { s with lines := c }
/-- `SEQ <- q`. -/
def State.withSeq (q : Seq) (s : State) : State := { s with seq := q }
/-- `POLLS <- n`. -/
def State.withPolls (n : Nat) (s : State) : State := { s with polls := n }
/-- `RESULT <- r`. -/
def State.withResult (r : Result) (s : State) : State := { s with result := r }
/-- `NUMCOLS <- cols; NUMLINES <- rows; CURLINE <- 0` (40_init_sequencer R132 step 0; 92 D22). -/
def State.withGeometry (cols rows : Byte) (s : State) : State :=
  { s with numCols := cols, numLines := rows, curLine := 0 }
/-- Step 9 of the power-on sequence (40_init_sequencer R136). -/
def State.withSequenceShadows (s : State) : State :=
  { s with func := funcAfterSequence, dispctl := dispctlAfterSequence, entry := entryAfterSequence }
/-- `DISPCTL <- d`. -/
def State.withDispctl (d : BitVec 3) (s : State) : State := { s with dispctl := d }
/-- `ENTRY <- t`. -/
def State.withEntry (t : BitVec 2) (s : State) : State := { s with entry := t }
/-- An outcome recorded for good (60_exceptions R242). -/
def State.addRecord (r : Record) (s : State) : State := { s with records := s.records ++ [r] }
/-- The device agent moved on. -/
def State.withDevice (d : Device) (s : State) : State := { s with device := d }
/-- The host's remaining offers. -/
def State.withHost (h : List Offer) (s : State) : State := { s with host := h }

/-! The four primitives (20_memory R61 to R64). -/

/-- What `LineDir(l, d)` does to the lines: a line that turns to output drives `Unknown` until it is set (20_memory R61). -/
def dirLines (l : Line) (d : Dir) (c : PerLine LineState) : PerLine LineState :=
  let cur := PerLine.get c l
  PerLine.put c l
    { dir := dirState d, lvl := if d = .output ∧ cur.dir ≠ .output then .unknown else cur.lvl }

/-- What `LineSet(l, v)` does to the lines (20_memory R62). -/
def setLines (l : Line) (v : Level) (c : PerLine LineState) : PerLine LineState :=
  PerLine.put c l { dir := (PerLine.get c l).dir, lvl := driveLevel v }

/-- `LineDir(l, d)` (20_memory R61). -/
def lineDir (l : Line) (d : Dir) (s : State) : State :=
  (s.withLines (dirLines l d s.lines)).appendEvent (.dir l d)

/-- `LineSet(l, v)`, which requires an output (20_memory R62). -/
def lineSet (l : Line) (v : Level) (s : State) : Except Fault State :=
  if (PerLine.get s.lines l).dir = .output then
    .ok ((s.withLines (setLines l v s.lines)).appendEvent (.set l v))
  else .error (.lineNotOutput l)

/-- The level the device answers to a `LineGet(l)` after the trace `t` (20_memory R63; 60_exceptions R250). -/
def deviceAnswer (d : Device) (t : List Event) (l : Line) : Level :=
  match d with
  | .script [] => Config.deviceAnswer t l
  | .script (v :: _) => v
  | .stuck v => v

/-- The device agent once it has answered. -/
def deviceAfter : Device → Device
  | .script [] => .script []
  | .script (_ :: vs) => .script vs
  | .stuck v => .stuck v

/-- `LineGet(l) -> v`, which requires an input; the value is the device's (20_memory R63). -/
def lineGet (l : Line) (s : State) : Except Fault (Level × State) :=
  if (PerLine.get s.lines l).dir = .input then
    let v := deviceAnswer s.device s.trace l
    .ok (v, (s.withDevice (deviceAfter s.device)).appendEvent (.get l v))
  else .error (.lineNotInput l)

/-- `Wait(us)`, a lower bound on the time that passes (20_memory R64). -/
def waitUs (us : Nat) (s : State) : State := s.appendEvent (.wait us)

/-- One primitive, with the handshake's local b before and after it (10_state R35). -/
def perform (p : Prim) (b : Option Level) (s : State) : Except Fault (Option Level × State) :=
  match p with
  | .dir l d => .ok (b, lineDir l d s)
  | .set l v =>
    match lineSet l v s with
    | .ok t => .ok (b, t)
    | .error f => .error f
  | .get l =>
    match lineGet l s with
    | .ok (v, t) => .ok (some v, t)
    | .error f => .error f
  | .wait us => .ok (b, waitUs us s)

/-! The sequencer (10_state R34). -/

/-- An outcome of 60_exceptions R242: the request ends with no further event, SEQ is Idle, the outcome is recorded for good. -/
def endWithRecord (r : Record) (s : State) : State := (s.withSeq .idle).addRecord r

/-- `POLLS <- 0`, only if POLL_LIMIT is not none (42_handshake R170). -/
def clearPolls (s : State) : State :=
  match s.params.pollLimit with
  | none => s
  | some _ => s.withPolls 0

/-- The end of a poll iteration (42_handshake R170, R173, R177): leave on a sample that is not BUSY_LEVEL, else repeat, or give up at the
bound: the exit events, then the error, and nothing of `rest`. The local b is discarded. -/
def decidePoll (q : Instr) (b : Option Level) (rest : List Op) (s : State) : State :=
  if b = some s.params.busyLevel then
    match s.params.pollLimit with
    | none => s.withSeq (.running q (pollIterationOps ++ .pollDecide :: rest) none)
    | some k =>
      let counted := s.withPolls (s.polls + 1)
      if s.polls + 1 = k then
        counted.withSeq (.running q (handshakeExitOps ++ [.raiseNotResponding]) none)
      else counted.withSeq (.running q (pollIterationOps ++ .pollDecide :: rest) none)
  else s.withSeq (.running q (handshakeExitOps ++ rest) none)

/-- Put SEQ at the position `ops` of the request `q`: the statements before the next event are performed, and a microprogram with
nothing left leaves SEQ Idle (10_state R34). -/
def settle (q : Instr) (b : Option Level) : List Op → State → State
  | [], s => s.withSeq .idle
  | .bus p :: rest, s => s.withSeq (.running q (.bus p :: rest) b)
  | .geometry cols rows :: rest, s => settle q b rest (s.withGeometry cols rows)
  | .shadows :: rest, s => settle q b rest s.withSequenceShadows
  | .clearPolls :: rest, s => settle q b rest (clearPolls s)
  | .pollDecide :: rest, s => decidePoll q b rest s
  | .raiseNotResponding :: _, s => (s.withResult .deviceNotResponding).withSeq .idle
  | .returnOne :: rest, s => settle q b rest (s.withResult (.value 1))

/-- One step of the running request: its next event, and the statements up to the one after (10_state R34). -/
def advance (s : State) : State :=
  match s.seq with
  | .idle => s
  | .running q (.bus p :: rest) b =>
    match perform p b s with
    | .ok (b', t) => settle q b' rest t
    | .error f => endWithRecord (.fault f) s
  | .running q ops b => settle q b ops s

/-! Taking a request. -/

/-- A request accepted: RESULT is empty until it returns, and SEQ is Running at its first event (10_state R34; log 6). -/
def start (q : Instr) (ops : List Op) (s : State) : State := settle q none ops (s.withResult .empty)

/-- A request other than CONSTRUCT: not taken while another runs (60_exceptions R247; log 7), refused before CONSTRUCT
(70_reset_and_hazards R272), else what `body` makes of it. -/
def takeRequest (i : Instr) (body : State → State) (s : State) : Host.Outcome State Fault Refusal :=
  match s.seq with
  | .running _ _ _ => .next s
  | .idle =>
    if s.constructed then .next (body s)
    else .next (endWithRecord (.refusal (.notConstructed i)) s)

/-- A request that is one SEND(v, Low) after the register writes `upd` (30_encoding R105). -/
def sendCommand (i : Instr) (upd : State → State) (v : Byte) (s : State) : Host.Outcome State Fault Refusal :=
  takeRequest i (fun t => start i (sendOps v .low) (upd t)) s

/-- A request that writes DISPCTL and sends it (43_command_surface R193 to R198). -/
def sendDispctl (i : Instr) (d : BitVec 3) (s : State) : Host.Outcome State Fault Refusal :=
  sendCommand i (State.withDispctl d) (dispctlCmd d) s

/-- A request that writes ENTRY and sends it (43_command_surface R201 to R204). -/
def sendEntry (i : Instr) (t : BitVec 2) (s : State) : Host.Outcome State Fault Refusal :=
  sendCommand i (State.withEntry t) (entryCmd t) s

/-- An internal procedure: called by a running request its events run in place (00_scope R12); on an idle, built block it
runs by itself, as the vectors of 95 (V-N1, V-H1) run it (log 9). -/
def runProcedure (i : Instr) (ops : List Op) (s : State) : Host.Outcome State Fault Refusal :=
  match s.seq with
  | .running q rest b => .next (settle q b (ops ++ rest) s)
  | .idle => takeRequest i (start i ops) s

/-! The host's side. -/

/-- What an offer asks for: the request itself, the request a line of text writes (30_encoding R104), or the one picked of
the requests that share a table word (R106; log 8). -/
def decodeOffer : Offer → Except DecodeError Instr
  | .request i => .ok i
  | .text cs => decode cs
  | .tableWord nbits w =>
    match decodeTableWord nbits w with
    | some i => .ok i
    | none => .error .notABusWord

/-- The host's next offer, taken off its list. -/
def fetch (s : State) : Option (Offer × State) :=
  match s.host with
  | [] => none
  | o :: rest => some (o, s.withHost rest)

/-- One line an output at Low. -/
def outputLow : LineState := { dir := .output, lvl := .low }

/-- The lines at the end of a power-on sequence (10_state R42). -/
def linesAfterSequence : PerLine LineState :=
  { rs := outputLow, rw := outputLow, e := outputLow, data0 := outputLow, data1 := outputLow,
    data2 := { dir := .output, lvl := .high }, data3 := { dir := .output, lvl := .unknown } }

/-- The block as a CONSTRUCT whose power-on sequence is complete leaves it (10_state R42), with the variant and lines it has:
what `withFetchWord` needs of a block that is not built yet (log 5). -/
def builtState (s : State) : State :=
  { ((s.withGeometry s.params.defaultCols s.params.defaultRows).withSequenceShadows).withLines linesAfterSequence with
    constructed := true }

/-- A table word put where `step` looks for its next request: the host's only offer, before an idle, built block (log 5). -/
def offerTableWord (s : State) (nbits w : Nat) : State :=
  let ready := if s.constructed then s else builtState s
  (ready.withSeq .idle).withHost [.tableWord nbits w]

end Sys2Proof.Machine
end

