-- ==== Sys2Proof/Machine/Commands.lean ====
section
/-! DEFINITION. Family 'command surface': fixed commands, cursor placement, scrolling and glyphs (43_command_surface R190 to R192, R199, R200, R205). -/

namespace Sys2Proof.Machine

/-- CLEAR (43_command_surface R190). -/
def execClear (s : State) : Host.Outcome State Fault Refusal := sendCommand .clear id 0x01 s

/-- HOME (R191). -/
def execHome (s : State) : Host.Outcome State Fault Refusal := sendCommand .home id 0x02 s

/-- SET_CURSOR (R192): the clamped row's address is sent, or, where `ROW_OFFSETS` has no entry for it, the fault is recorded
and no event is emitted. -/
def execSetCursor (col row : Byte) (s : State) : Host.Outcome State Fault Refusal :=
  takeRequest (.setCursor col row)
    (fun t =>
      match ddramCmd t.numLines col row with
      | some v => start (.setCursor col row) (sendOps v .low) t
      | none => endWithRecord (.fault (.rowOffsetOutOfTable row)) t) s

/-- SCROLL_DISPLAY_LEFT (R199). -/
def execScrollDisplayLeft (s : State) : Host.Outcome State Fault Refusal := sendCommand .scrollDisplayLeft id 0x18 s

/-- SCROLL_DISPLAY_RIGHT (R200). -/
def execScrollDisplayRight (s : State) : Host.Outcome State Fault Refusal := sendCommand .scrollDisplayRight id 0x1C s

/-- CREATE_CHAR (R205): the CGRAM address of the masked slot, then the eight bitmap bytes as data. -/
def execCreateChar (slot : Byte) (bitmap : Bitmap) (s : State) : Host.Outcome State Fault Refusal :=
  takeRequest (.createChar slot bitmap)
    (start (.createChar slot bitmap)
      (sendOps (cgramCmd slot) .low ++ (bitmapBytes bitmap).flatMap fun b => sendOps b .high)) s

end Sys2Proof.Machine
end

