-- ==== Sys2Proof/Machine/Display.lean ====
section
/-! DEFINITION. Family 'display control': the six requests that write one bit of DISPCTL and send it (43_command_surface R193 to R198). -/

namespace Sys2Proof.Machine

/-- DISPLAY (43_command_surface R193): `DISPCTL.D <- 1`. -/
def execDisplay (s : State) : Host.Outcome State Fault Refusal :=
  sendDispctl .display (setField dispctlD s.dispctl) s

/-- NO_DISPLAY (R194): `DISPCTL.D <- 0`. -/
def execNoDisplay (s : State) : Host.Outcome State Fault Refusal :=
  sendDispctl .noDisplay (clearField dispctlD s.dispctl) s

/-- CURSOR (R195): `DISPCTL.C <- 1`. -/
def execCursor (s : State) : Host.Outcome State Fault Refusal :=
  sendDispctl .cursor (setField dispctlC s.dispctl) s

/-- NO_CURSOR (R196): `DISPCTL.C <- 0`. -/
def execNoCursor (s : State) : Host.Outcome State Fault Refusal :=
  sendDispctl .noCursor (clearField dispctlC s.dispctl) s

/-- BLINK (R197): `DISPCTL.B <- 1`. -/
def execBlink (s : State) : Host.Outcome State Fault Refusal :=
  sendDispctl .blink (setField dispctlB s.dispctl) s

/-- NO_BLINK (R198): `DISPCTL.B <- 0`. -/
def execNoBlink (s : State) : Host.Outcome State Fault Refusal :=
  sendDispctl .noBlink (clearField dispctlB s.dispctl) s

end Sys2Proof.Machine
end

