-- ==== Sys2Proof/Machine/Entry.lean ====
section
/-! DEFINITION. Family 'entry mode': the four requests that write one bit of ENTRY and send it (43_command_surface R201 to R204). -/

namespace Sys2Proof.Machine

/-- LEFT_TO_RIGHT (43_command_surface R201): `ENTRY.ID <- 1`. -/
def execLeftToRight (s : State) : Host.Outcome State Fault Refusal :=
  sendEntry .leftToRight (setField entryID s.entry) s

/-- RIGHT_TO_LEFT (R202): `ENTRY.ID <- 0`. -/
def execRightToLeft (s : State) : Host.Outcome State Fault Refusal :=
  sendEntry .rightToLeft (clearField entryID s.entry) s

/-- AUTOSCROLL (R203): `ENTRY.S <- 1`. -/
def execAutoscroll (s : State) : Host.Outcome State Fault Refusal :=
  sendEntry .autoscroll (setField entryS s.entry) s

/-- NO_AUTOSCROLL (R204): `ENTRY.S <- 0`. -/
def execNoAutoscroll (s : State) : Host.Outcome State Fault Refusal :=
  sendEntry .noAutoscroll (clearField entryS s.entry) s

end Sys2Proof.Machine
end

