-- ==== Sys2Proof/Machine/Init.lean ====
section
/-! DEFINITION. Family 'sequence': CONSTRUCT and BEGIN (40_init_sequencer R130, R131). -/

namespace Sys2Proof.Machine

/-- The block latched from the CONSTRUCT operands, before its first event (10_state R41): lines unconfigured, RESULT and
TRACE empty; the shadows, geometry and POLLS, which R41 leaves unspecified, keep what they hold. -/
def latchConstruct (ver : Byte) (lineMap : PerLine LineId) (s : State) : State :=
  { s with
    constructed := true
    variant := decodeVariant ver
    lineMap := lineMap
    lines := unconfiguredLines
    result := .empty
    trace := [] }

/-- CONSTRUCT (40_init_sequencer R130; 92 D11, D18, D28): refused on a built block and with two roles on one line, else the
operands are latched and the power-on sequence runs with the default geometry. -/
def execConstruct (ver : Byte) (rs rw e d0 d1 d2 d3 : LineId) (s : State) : Host.Outcome State Fault Refusal :=
  match s.seq with
  | .running _ _ _ => .next s
  | .idle =>
    if s.constructed then .next (endWithRecord (.refusal .constructTwice) s)
    else
      match duplicatedIds [rs, rw, e, d0, d1, d2, d3] with
      | d :: ds => .next (endWithRecord (.refusal (.duplicateLine (d :: ds))) s)
      | [] =>
        .next (start (.construct ver rs rw e d0 d1 d2 d3)
          (powerOnOps (decodeVariant ver) s.params.defaultCols s.params.defaultRows)
          (latchConstruct ver { rs := rs, rw := rw, e := e, data0 := d0, data1 := d1, data2 := d2, data3 := d3 } s))

/-- BEGIN (40_init_sequencer R131). -/
def execBeginInit (cols rows : Byte) (s : State) : Host.Outcome State Fault Refusal :=
  takeRequest (.beginInit cols rows) (fun t => start (.beginInit cols rows) (powerOnOps t.variant cols rows) t) s

end Sys2Proof.Machine
end

