-- ==== Sys2Proof/Machine/Procedures.lean ====
section
/-! DEFINITION. Family 'internal': the five procedures a request calls in place (00_scope R12; 41_transfer R150 to R152; 42_handshake R170; 40_init_sequencer R132). -/

namespace Sys2Proof.Machine

/-- WRITE4BITS (41_transfer R150). -/
def execWrite4bits (n : Nibble) (s : State) : Host.Outcome State Fault Refusal :=
  runProcedure (.write4bits n) (write4bitsOps n) s

/-- PULSE_ENABLE (R151). -/
def execPulseEnable (s : State) : Host.Outcome State Fault Refusal :=
  runProcedure .pulseEnable pulseEnableOps s

/-- SEND (R152). -/
def execSend (v : Byte) (mode : Level) (s : State) : Host.Outcome State Fault Refusal :=
  runProcedure (.send v mode) (sendOps v mode) s

/-- WAIT_FOR_READY (42_handshake R170). -/
def execWaitForReady (s : State) : Host.Outcome State Fault Refusal :=
  runProcedure .waitForReady waitForReadyOps s

/-- POWER_ON_SEQUENCE (40_init_sequencer R132). It reads VARIANT and nothing else of the block's prior state (R137). -/
def execPowerOnSequence (cols rows : Byte) (s : State) : Host.Outcome State Fault Refusal :=
  runProcedure (.powerOnSequence cols rows) (powerOnOps s.variant cols rows) s

end Sys2Proof.Machine
end

