-- ==== Sys2Proof/Machine/Transfer.lean ====
section
/-! DEFINITION. Family 'transfer': COMMAND and WRITE, a SEND alone (41_transfer R153, R154). -/

namespace Sys2Proof.Machine

/-- COMMAND (41_transfer R153): "raw passthrough, no validation"; no shadow is written. -/
def execCommand (v : Byte) (s : State) : Host.Outcome State Fault Refusal :=
  sendCommand (.command v) id v s

/-- WRITE (41_transfer R154): SEND(v, High), then RESULT is 1. -/
def execWrite (v : Byte) (s : State) : Host.Outcome State Fault Refusal :=
  takeRequest (.write v) (start (.write v) (sendOps v .high ++ [.returnOne])) s

end Sys2Proof.Machine
end

