-- ==== Sys2Proof/Machine/Dispatch.lean ====
section
/-! DEFINITION. One arm per row of the opcode table, each one call of its meaning. -/

namespace Sys2Proof.Machine

def exec (i : Instr) (s : State) : Host.Outcome State Fault Refusal :=
  match i with
  | .construct ver rs rw e d0 d1 d2 d3 => Sys2Proof.Machine.execConstruct ver rs rw e d0 d1 d2 d3 s
  | .beginInit cols rows => Sys2Proof.Machine.execBeginInit cols rows s
  | .command v => Sys2Proof.Machine.execCommand v s
  | .write v => Sys2Proof.Machine.execWrite v s
  | .clear => Sys2Proof.Machine.execClear s
  | .home => Sys2Proof.Machine.execHome s
  | .setCursor col row => Sys2Proof.Machine.execSetCursor col row s
  | .display => Sys2Proof.Machine.execDisplay s
  | .noDisplay => Sys2Proof.Machine.execNoDisplay s
  | .cursor => Sys2Proof.Machine.execCursor s
  | .noCursor => Sys2Proof.Machine.execNoCursor s
  | .blink => Sys2Proof.Machine.execBlink s
  | .noBlink => Sys2Proof.Machine.execNoBlink s
  | .scrollDisplayLeft => Sys2Proof.Machine.execScrollDisplayLeft s
  | .scrollDisplayRight => Sys2Proof.Machine.execScrollDisplayRight s
  | .leftToRight => Sys2Proof.Machine.execLeftToRight s
  | .rightToLeft => Sys2Proof.Machine.execRightToLeft s
  | .autoscroll => Sys2Proof.Machine.execAutoscroll s
  | .noAutoscroll => Sys2Proof.Machine.execNoAutoscroll s
  | .createChar slot bitmap => Sys2Proof.Machine.execCreateChar slot bitmap s
  | .write4bits n => Sys2Proof.Machine.execWrite4bits n s
  | .pulseEnable => Sys2Proof.Machine.execPulseEnable s
  | .send v mode => Sys2Proof.Machine.execSend v mode s
  | .waitForReady => Sys2Proof.Machine.execWaitForReady s
  | .powerOnSequence cols rows => Sys2Proof.Machine.execPowerOnSequence cols rows s

end Sys2Proof.Machine
end

