-- ==== Sys2Proof/Machine/Step.lean ====
section
/-! DEFINITION. One step: the running request's next event, or, when the block is idle, the host's next offer taken. -/

namespace Sys2Proof.Machine

/-- A running block performs one event (10_state R34). An idle block takes the host's next offer (60_exceptions R247, R251): a
well-formed request goes to `exec`, anything else is refused by name and is not taken. With nothing offered it waits. -/
def step (s : State) : Host.Outcome State Fault Refusal :=
  match s.seq with
  | .running _ _ _ => .next (advance s)
  | .idle =>
    match fetch s with
    | none => .next s
    | some (o, t) =>
      match decodeOffer o with
      | .error e => .refused (.badOffer e)
      | .ok i => if i.wellFormed then exec i t else .refused (.notARequest i)

/-- `s` with the table word offered to an idle, built block, so that the very next step takes exactly it (log 5). -/
def State.withFetchWord (s : State) (nbits w : Nat) : State := offerTableWord s nbits w

end Sys2Proof.Machine
end

