-- ==== Sys2Proof/Machine/Observer.lean ====
section
/-! DEFINITION. What an observer of the lines reads off a trace: line states, strobes, bus words, samples, minimum time, and the device addresses written. No step reads any of it. -/

namespace Sys2Proof.Machine

/-- The line state after one event (20_memory R61, R62). -/
def applyEvent (c : PerLine LineState) : Event → PerLine LineState
  | .dir l d => dirLines l d c
  | .set l v => setLines l v c
  | .get _ _ => c
  | .wait _ => c

/-- The line state after a trace. -/
def linesAfter (c : PerLine LineState) (t : List Event) : PerLine LineState := t.foldl applyEvent c

/-- The level a line is driven at, where the block drives it at a known one. -/
def drivenLevel (x : LineState) : Option Level :=
  match x.dir, x.lvl with
  | .output, .low => some .low
  | .output, .high => some .high
  | _, _ => none

/-- The bit of a level. -/
def levelBit : Level → Bool
  | .low => false
  | .high => true

/-- The nibble on DATA3..DATA0, where all four are driven (30_encoding R92). -/
def nibbleOnLines (c : PerLine LineState) : Option Nibble :=
  match drivenLevel c.data3, drivenLevel c.data2, drivenLevel c.data1, drivenLevel c.data0 with
  | some b3, some b2, some b1, some b0 =>
    some (BitVec.ofBool (levelBit b3) ++ BitVec.ofBool (levelBit b2) ++ BitVec.ofBool (levelBit b1)
      ++ BitVec.ofBool (levelBit b0))
  | _, _, _, _ => none

/-- One E pulse as the device meets it: RW, RS and the data lines (20_memory R71). RW Low is a write, RW High a read. -/
structure Strobe where
  rw : Option Level
  rs : Option Level
  nibble : Option Nibble
  deriving DecidableEq, Repr

/-- The strobe an event ends: E driven from High to Low. Which edge latches is not in source (91 N12) and does not matter:
the lines are stable for the whole pulse (41_transfer R155). -/
def strobeOf (c : PerLine LineState) : Event → Option Strobe
  | .set .e .low =>
    if c.e.lvl = .high then
      some { rw := drivenLevel c.rw, rs := drivenLevel c.rs, nibble := nibbleOnLines c }
    else none
  | _ => none

/-- The strobes of a trace that starts from the line state `c`, in order. -/
def strobes (c : PerLine LineState) : List Event → List Strobe
  | [] => []
  | ev :: t => (strobeOf c ev).toList ++ strobes (applyEvent c ev) t

/-- A strobe's write: the RS level and the nibble latched. -/
def strobeWrite (x : Strobe) : Option (Level × Nibble) :=
  match x.rw, x.rs, x.nibble with
  | some .low, some m, some n => some (m, n)
  | _, _, _ => none

/-- The nibbles a trace writes, with their RS level. -/
def writtenNibbles (c : PerLine LineState) (t : List Event) : List (Level × Nibble) :=
  (strobes c t).filterMap strobeWrite

/-- Nibbles paired into bus words, high nibble first, from the first nibble of a byte (20_memory R67, R70). -/
def pairNibbles : List (Level × Nibble) → List BusWord
  | (m, h) :: (_, l) :: rest => busWord m (h ++ l) :: pairNibbles rest
  | _ => []

/-- The bus words of a trace of whole byte transfers. -/
def observedBusWords (c : PerLine LineState) (t : List Event) : List BusWord := pairNibbles (writtenNibbles c t)

/-- The two nibbles of a bus word with its RS level, high nibble first (20_memory R67; 30_encoding R91, R92). -/
def wordNibbles (w : BusWord) : List (Level × Nibble) :=
  [(busWordMode w, highNibble (busWordByte w)), (busWordMode w, lowNibble (busWordByte w))]

/-- An event at the platform's lines: the role of a trace event replaced by the line the block was built with (30_encoding R94). -/
inductive PlatformEvent where
  | dir (p : LineId) (d : Dir)
  | set (p : LineId) (v : Level)
  | get (p : LineId) (v : Level)
  | wait (us : Nat)
  deriving DecidableEq, Repr

/-- "A model maps them to platform lines through LINE_MAP" (30_encoding R94). BUSY is the entry of DATA3 (10_state R25). -/
def platformEvent (m : PerLine LineId) : Event → PlatformEvent
  | .dir l d => .dir (PerLine.get m l) d
  | .set l v => .set (PerLine.get m l) v
  | .get l v => .get (PerLine.get m l) v
  | .wait us => .wait us

/-- The trace as the platform sees it: every call on the platform line of its role. -/
def platformTrace (s : State) : List PlatformEvent := s.trace.map (platformEvent s.lineMap)

/-- The `Get` events of a trace, in order, with their answers (20_memory R82). -/
def samples : List Event → List (Line × Level)
  | [] => []
  | .get l v :: t => (l, v) :: samples t
  | .dir _ _ :: t => samples t
  | .set _ _ :: t => samples t
  | .wait _ :: t => samples t

/-- The least time a trace takes, in microseconds: the sum of its waits (70_reset_and_hazards R283). -/
def minTime : List Event → Nat
  | [] => 0
  | .wait us :: t => us + minTime t
  | .dir _ _ :: t => minTime t
  | .set _ _ :: t => minTime t
  | .get _ _ :: t => minTime t

/-- The two address spaces of the device (20_memory R73). -/
inductive Space where
  | ddram
  | cgram
  deriving DecidableEq, Repr

/-- The space and address a command byte selects, if it selects one: set-DDRAM-address, set-CGRAM-address (20_memory R73), and
clear and home, which put the counter back into DDRAM (70_reset_and_hazards R281). -/
def selectedAddress (v : Byte) : Option (Space × Nat) :=
  if v.getLsbD 7 then some (.ddram, (v.extractLsb' 0 7).toNat)
  else if v.getLsbD 6 then some (.cgram, (v.extractLsb' 0 6).toNat)
  else if v = 0x01 ∨ v = 0x02 then some (.ddram, 0)
  else none

/-- The address after a data write: it "auto-increments" (20_memory R73). DESIGN CHOICE, log 22: after the last address of the 7 bits of DDRAM
(0x7F) or the 6 bits of CGRAM (0x3F) it goes to 0; the spec gives the widths and no wrap. -/
def nextAddress : Space × Nat → Space × Nat
  | (.ddram, a) => (.ddram, (a + 1) % 128)
  | (.cgram, a) => (.cgram, (a + 1) % 64)

/-- Where the data bytes of a list of bus words go on the device, from the address counter `at` (20_memory R73). A data word before any
address is known is left out. Informative: the device is outside the block (00_scope R6; log 11). -/
def deviceWrites : Option (Space × Nat) → List BusWord → List (Space × Nat × Byte)
  | _, [] => []
  | ctr, w :: ws =>
    match busWordMode w, ctr with
    | .low, ctr => deviceWrites ((selectedAddress (busWordByte w)).or ctr) ws
    | .high, some a => (a.1, a.2, busWordByte w) :: deviceWrites (some (nextAddress a)) ws
    | .high, none => deviceWrites none ws

end Sys2Proof.Machine
end

