-- ==== Sys2Proof/Safety.lean ====
section
/-! DEFINITION. The terms the claims use: traces as spec/95 writes them, runs, what an idle block looks like, the invariant, and conformance of traces. -/

namespace Sys2Proof.Safety

open Sys2Proof.Machine

/-! ## Traces, written out as in 95_test_vectors section 0 -/

/-- `NIB(n)`: 8 events. -/
def nibTrace (n : Nibble) : List Event :=
  [.set .data0 (nibbleLevel n 0), .set .data1 (nibbleLevel n 1), .set .data2 (nibbleLevel n 2),
   .set .data3 (nibbleLevel n 3), .wait 50, .set .e .high, .wait 50, .set .e .low]

/-- `IT(b)`: 8 events, one handshake iteration (42_handshake R171). -/
def iterTrace (b : Level) : List Event :=
  [.set .e .low, .set .e .high, .wait 10, .get .data3 b, .set .e .low, .set .e .high, .wait 50, .set .e .low]

/-- `HS(b1, ..., bk)`: `5 + 8k` events, the handshake (42_handshake R170). -/
def handshakeTrace (bs : List Level) : List Event :=
  [.dir .data3 .input, .set .rs .low, .set .rw .high] ++ bs.flatMap iterTrace
    ++ [.dir .data3 .output, .set .rw .low]

/-- `SND(v, m; b1, ..., bk)`: `23 + 8k` events (41_transfer R152). -/
def sendTrace (v : Byte) (m : Level) (bs : List Level) : List Event :=
  [.set .rs m, .set .rw .low] ++ nibTrace (highNibble v) ++ nibTrace (lowNibble v) ++ handshakeTrace bs

/-- Steps 1 and 2 of the power-on sequence: events 1 to 15 of V-I1. -/
def configureTrace : List Event :=
  [.dir .rs .output, .dir .rw .output, .dir .e .output, .set .rs .low, .set .e .low, .set .rw .low, .wait 50000,
   .dir .data0 .output, .set .data0 .low, .dir .data1 .output, .set .data1 .low,
   .dir .data2 .output, .set .data2 .low, .dir .data3 .output, .set .data3 .low]

/-- The lone nibbles of the older and the newer variant (40_init_sequencer R134). -/
def loneTrace : Variant → List Event
  | .v1 => nibTrace 0x3 ++ [.wait 5000] ++ nibTrace 0x2 ++ [.wait 5000] ++ nibTrace 0x2 ++ [.wait 5000]
      ++ nibTrace 0x8 ++ [.wait 5000]
  | .v2 => nibTrace 0x3 ++ [.wait 5000] ++ nibTrace 0x8 ++ [.wait 5000] ++ nibTrace 0x2 ++ [.wait 5000]
      ++ nibTrace 0x2 ++ [.wait 5000] ++ nibTrace 0x8 ++ [.wait 5000]

/-- What the device latches of the lone nibbles, all with RS Low (40_init_sequencer R134). -/
def loneWrites : Variant → List (Level × Nibble)
  | .v1 => [(.low, 0x3), (.low, 0x2), (.low, 0x2), (.low, 0x8)]
  | .v2 => [(.low, 0x3), (.low, 0x8), (.low, 0x2), (.low, 0x2), (.low, 0x8)]

/-- The answers of one handshake that reads busy `j` times and then ready, on a block with this BUSY_LEVEL. -/
def pollAnswers (busy : Level) (j : Nat) : List Level :=
  List.replicate j busy ++ [match busy with
    | .low => .high
    | .high => .low]

/-- The power-on sequence, the five handshakes reading busy `j1` to `j5` times (vectors V-I1, V-I2). -/
def powerOnTrace (variant : Variant) (busy : Level) (j1 j2 j3 j4 j5 : Nat) : List Event :=
  configureTrace ++ loneTrace variant
    ++ sendTrace 0x08 .low (pollAnswers busy j1) ++ [.wait 5000]
    ++ sendTrace 0x01 .low (pollAnswers busy j2) ++ [.wait 5000]
    ++ sendTrace 0x06 .low (pollAnswers busy j3) ++ [.wait 5000]
    ++ sendTrace 0x02 .low (pollAnswers busy j4) ++ [.wait 5000]
    ++ sendTrace 0x0C .low (pollAnswers busy j5) ++ [.wait 5000]

/-- Data bytes sent one after another, each handshake reading busy as often as its entry says. -/
def dataTrace (busy : Level) : List (Byte × Nat) → List Event
  | [] => []
  | (v, j) :: rest => sendTrace v .high (pollAnswers busy j) ++ dataTrace busy rest

/-- Transfers one after another: a byte, its mode, and how often its handshake reads busy. -/
def transfersTrace (busy : Level) : List ((Byte × Level) × Nat) → List Event
  | [] => []
  | ((v, m), j) :: rest => sendTrace v m (pollAnswers busy j) ++ transfersTrace busy rest

/-- Commands of power-on step 8 one after another, each with its fixed wait (40_init_sequencer R135). -/
def initTrace (busy : Level) : List (Byte × Nat) → List Event
  | [] => []
  | (v, j) :: rest => sendTrace v .low (pollAnswers busy j) ++ [.wait 5000] ++ initTrace busy rest

/-! ## Runs -/

/-- `n` steps of the machine, stopping at the first that is no next state: `Host.Core.run` of the machine (Laws/Run.lean). -/
def run : Nat → State → Host.Outcome State Fault Refusal
  | 0, s => .next s
  | n + 1, s =>
    match step s with
    | .next t => run n t
    | .fault r => .fault r
    | .refused r => .refused r

/-- All lines outputs and RS, RW, E Low: the lines between requests (10_state R42; 41_transfer R156). -/
def linesIdle (c : PerLine LineState) : Bool :=
  c.rs.dir == .output && c.rw.dir == .output && c.e.dir == .output && c.data0.dir == .output
    && c.data1.dir == .output && c.data2.dir == .output && c.data3.dir == .output
    && c.rs.lvl == .low && c.rw.lvl == .low && c.e.lvl == .low

/-- All lines outputs and E Low, RS and RW at any level: the lines a SEND or a handshake can start from, the handshake of a data byte
among them, which finds RS High (41_transfer R151, R152; 42_handshake R172). -/
def linesDriven (c : PerLine LineState) : Bool :=
  c.rs.dir == .output && c.rw.dir == .output && c.e.dir == .output && c.data0.dir == .output
    && c.data1.dir == .output && c.data2.dir == .output && c.data3.dir == .output && c.e.lvl == .low

/-- The block is built and idle, with its lines as every request leaves them. -/
def Ready (s : State) : Prop := s.seq = .idle ∧ s.constructed = true ∧ linesIdle s.lines = true

/-- One line an output at a level. -/
def outputAt (v : Level) : LineState := { dir := .output, lvl := driveLevel v }

/-- The lines after a handshake has ended a transfer of `v`: RS, RW, E Low, DATA0 to DATA2 at the low nibble, DATA3 an output at
Unknown (41_transfer R152; 42_handshake R173; vector V-T3). -/
def linesAfterSend (v : Byte) : PerLine LineState :=
  { rs := outputAt .low, rw := outputAt .low, e := outputAt .low,
    data0 := outputAt (nibbleLevel (lowNibble v) 0), data1 := outputAt (nibbleLevel (lowNibble v) 1),
    data2 := outputAt (nibbleLevel (lowNibble v) 2), data3 := { dir := .output, lvl := .unknown } }

/-- POLLS after a handshake of `j` busy samples: counted only under a bound (10_state R36). -/
def pollsAfter (s : State) (j : Nat) : Nat :=
  match s.params.pollLimit with
  | none => s.polls
  | some _ => j

/-- The bound, if there is one, is not reached by `j` busy samples (42_handshake R177). -/
def WithinBound (s : State) (j : Nat) : Prop := ∀ k, s.params.pollLimit = some k → j < k

/-- `s` once the transfer of `v` has run to its end on it: the events of SEND, the lines it leaves, the device's answers used up. -/
def afterSend (s : State) (v : Byte) (m : Level) (j : Nat) (more : List Level) : State :=
  { s with
    lines := linesAfterSend v
    trace := s.trace ++ sendTrace v m (pollAnswers s.params.busyLevel j)
    polls := pollsAfter s j
    device := .script more }

/-- The instruction `i` taken at `s` completes as exactly one byte transfer, for a device that meets 60_exceptions R250's EventuallyReady at its
handshake, whatever the number of busy answers before: exec answers a next state, and `31 + 8j` steps on, the device
having answered busy `j` times and then ready, the block is idle again with `s1` (the registers as the request writes them)
carried through the transfer of `v` and RESULT at `r`. -/
def SendsByte (i : Instr) (s s1 : State) (v : Byte) (m : Level) (r : Result) : Prop :=
  ∀ (j : Nat) (more : List Level),
    s.device = .script (pollAnswers s.params.busyLevel j ++ more) → WithinBound s j →
    ∃ t, exec i s = .next t ∧
      run (31 + 8 * j) t = .next { afterSend s1 v m j more with seq := .idle, result := r }

/-- The instruction `i` taken at `s` gives up on a device that answers busy `k` times in a row, `k` being the bound: exec answers a next
state, and `23 + 8k` steps on the block is idle, the transfer's events and the handshake's exit done, and RESULT is the error
(42_handshake R177; 60_exceptions R243). -/
def SendGivesUp (i : Instr) (s s1 : State) (v : Byte) (m : Level) : Prop :=
  ∀ (k : Nat) (more : List Level),
    s.params.pollLimit = some k → 1 ≤ k →
    s.device = .script (List.replicate k s.params.busyLevel ++ more) →
    ∃ t, exec i s = .next t ∧
      run (23 + 8 * k) t = .next
        { s1 with
          lines := linesAfterSend v
          trace := s.trace ++ sendTrace v m (List.replicate k s.params.busyLevel)
          polls := k
          device := .script more
          seq := .idle
          result := .deviceNotResponding }

/-- The lines a handshake leaves, from the lines `c` it found: RS and RW Low, DATA3 an output at Unknown, the rest as they were
(42_handshake R172, R173). -/
def linesAfterHandshake (c : PerLine LineState) : PerLine LineState :=
  { c with rs := outputAt .low, rw := outputAt .low, data3 := { dir := .output, lvl := .unknown } }

/-- The instruction `i` taken at `s` completes as one byte transfer of exactly one sample on a device stuck at a level that is not BUSY_LEVEL:
exec answers a next state, and 31 steps on the block is idle again (70_reset_and_hazards R282). -/
def SendsAtOnce (i : Instr) (s s1 : State) (v : Byte) (m : Level) (r : Result) : Prop :=
  ∀ x : Level, s.device = .stuck x → x ≠ s.params.busyLevel →
    ∃ t, exec i s = .next t ∧
      run 31 t = .next
        { s1 with
          lines := linesAfterSend v
          trace := s.trace ++ sendTrace v m [x]
          polls := pollsAfter s 0
          seq := .idle
          result := r }

/-- `s` once a power-on sequence has given up at a handshake of step 8, after the commands `before` had completed and while `v` was sent: the
geometry is the new one, step 9 has not run (60_exceptions R243; vector V-I7). `trace` is what it had before the sequence. -/
def gaveUpPowerOn (s : State) (trace : List Event) (cols rows : Byte) (before : List (Byte × Nat)) (v : Byte) (k : Nat)
    (more : List Level) : State :=
  { s with
    lines := linesAfterSend v
    numCols := cols
    numLines := rows
    curLine := 0
    seq := .idle
    polls := k
    result := .deviceNotResponding
    trace := trace ++ configureTrace ++ loneTrace s.variant ++ initTrace s.params.busyLevel before
      ++ sendTrace v .low (List.replicate k s.params.busyLevel)
    device := .script more }

/-- The number of events of a power-on sequence that gives up so, `js` being the busy counts of the commands before. -/
def gaveUpPowerOnLength (variant : Variant) (js : List Nat) (k : Nat) : Nat :=
  (configureTrace ++ loneTrace variant).length + (js.map fun j => 32 + 8 * j).sum + (23 + 8 * k)

/-- `s` once a power-on sequence has run to its end on it with this geometry (10_state R42): `trace` is what it had before. -/
def afterPowerOn (s : State) (trace : List Event) (cols rows : Byte) (j1 j2 j3 j4 j5 : Nat) (more : List Level) : State :=
  { s with
    lines := linesAfterSend 0x0C
    func := 0x28
    dispctl := 0b100
    entry := 0b10
    numCols := cols
    numLines := rows
    curLine := 0
    seq := .idle
    polls := pollsAfter s j5
    result := .empty
    trace := trace ++ powerOnTrace s.variant s.params.busyLevel j1 j2 j3 j4 j5
    device := .script more }

/-- The number of events of a power-on sequence whose handshakes read busy `j1` to `j5` times (40_init_sequencer R138). -/
def powerOnLength (variant : Variant) (j1 j2 j3 j4 j5 : Nat) : Nat :=
  (match variant with
   | .v1 => 171
   | .v2 => 180) + 8 * ((j1 + 1) + (j2 + 1) + (j3 + 1) + (j4 + 1) + (j5 + 1))

/-- The answers of five handshakes that read busy `j1` to `j5` times. -/
def fiveAnswers (busy : Level) (j1 j2 j3 j4 j5 : Nat) : List Level :=
  pollAnswers busy j1 ++ pollAnswers busy j2 ++ pollAnswers busy j3 ++ pollAnswers busy j4 ++ pollAnswers busy j5

/-- 30_encoding R105: the register writes of a command-surface request, and the COMMAND byte it then sends. -/
def expansion (s : State) : Instr → Option (State × Byte)
  | .clear => some (s, 0x01)
  | .home => some (s, 0x02)
  | .setCursor col row =>
    match ([0x00, 0x40, 0x14, 0x54] : List Byte)[(if s.numLines ≤ row then 0 else row.toNat)]? with
    | some off => some (s, 0x80 ||| (col + off))
    | none => none
  | .display => some ({ s with dispctl := s.dispctl ||| 0b100 }, 0x08 ||| (s.dispctl ||| 0b100).setWidth 8)
  | .noDisplay => some ({ s with dispctl := s.dispctl &&& 0b011 }, 0x08 ||| (s.dispctl &&& 0b011).setWidth 8)
  | .cursor => some ({ s with dispctl := s.dispctl ||| 0b010 }, 0x08 ||| (s.dispctl ||| 0b010).setWidth 8)
  | .noCursor => some ({ s with dispctl := s.dispctl &&& 0b101 }, 0x08 ||| (s.dispctl &&& 0b101).setWidth 8)
  | .blink => some ({ s with dispctl := s.dispctl ||| 0b001 }, 0x08 ||| (s.dispctl ||| 0b001).setWidth 8)
  | .noBlink => some ({ s with dispctl := s.dispctl &&& 0b110 }, 0x08 ||| (s.dispctl &&& 0b110).setWidth 8)
  | .scrollDisplayLeft => some (s, 0x18)
  | .scrollDisplayRight => some (s, 0x1C)
  | .leftToRight => some ({ s with entry := s.entry ||| 0b10 }, 0x04 ||| (s.entry ||| 0b10).setWidth 8)
  | .rightToLeft => some ({ s with entry := s.entry &&& 0b01 }, 0x04 ||| (s.entry &&& 0b01).setWidth 8)
  | .autoscroll => some ({ s with entry := s.entry ||| 0b01 }, 0x04 ||| (s.entry ||| 0b01).setWidth 8)
  | .noAutoscroll => some ({ s with entry := s.entry &&& 0b10 }, 0x04 ||| (s.entry &&& 0b10).setWidth 8)
  | .construct _ _ _ _ _ _ _ _ => none
  | .beginInit _ _ => none
  | .command _ => none
  | .write _ => none
  | .createChar _ _ => none
  | .write4bits _ => none
  | .pulseEnable => none
  | .send _ _ => none
  | .waitForReady => none
  | .powerOnSequence _ _ => none

/-- The trace an outcome has reached, if it is a next state. -/
def traceOf : Host.Outcome State Fault Refusal → Option (List Event)
  | .next t => some t.trace
  | .fault _ => none
  | .refused _ => none

/-- The event is the one this primitive appends; a `LineGet` may get any level (20_memory R61 to R64). -/
def isEventOf : Prim → Event → Bool
  | .dir l d, ev => ev == .dir l d
  | .set l v, ev => ev == .set l v
  | .get l, ev => ev == .get l .low || ev == .get l .high
  | .wait us, ev => ev == .wait us

/-! ## The invariant -/

/-- The lines while the handshake polls: DATA3 an input, the others outputs, RS Low, RW High, E Low (42_handshake R172). -/
def linesPolling (c : PerLine LineState) : Bool :=
  c.rs.dir == .output && c.rw.dir == .output && c.e.dir == .output && c.data0.dir == .output
    && c.data1.dir == .output && c.data2.dir == .output && c.data3.dir == .input
    && c.rs.lvl == .low && c.rw.lvl == .high && c.e.lvl == .low

/-- Running `ops` from the lines `c`, no primitive meets a line of the wrong direction, nothing but E changes while E is High (41_transfer
R155), every poll decision finds the lines polling, and the request ends with the lines idle. -/
def opsSafe : PerLine LineState → List Op → Bool
  | c, [] => linesIdle c
  | c, .bus (.dir l d) :: rest => c.e.lvl != .high && opsSafe (dirLines l d c) rest
  | c, .bus (.set l v) :: rest =>
    (PerLine.get c l).dir == .output && (l == .e || c.e.lvl != .high) && opsSafe (setLines l v c) rest
  | c, .bus (.get l) :: rest => (PerLine.get c l).dir == .input && opsSafe c rest
  | c, .bus (.wait _) :: rest => opsSafe c rest
  | c, .pollDecide :: rest =>
    linesPolling c && opsSafe (setLines .rw .low (dirLines .data3 .output c)) rest
  | c, .raiseNotResponding :: _ => linesIdle c
  | c, .geometry _ _ :: rest => opsSafe c rest
  | c, .shadows :: rest => opsSafe c rest
  | c, .clearPolls :: rest => opsSafe c rest
  | c, .returnOne :: rest => opsSafe c rest

/-- The position of a running request is at an event: "the next event to be appended" (10_state R34). -/
def atEvent : List Op → Bool
  | .bus _ :: _ => true
  | _ => false

/-- What every step keeps: a running block is built, stands at an event, and the rest of its microprogram is safe from its lines; an
idle, built block has its lines idle; a built block's seven line ids are distinct (10_state R24). -/
def inv (s : State) : Bool :=
  (match s.seq with
   | .idle => !s.constructed || linesIdle s.lines
   | .running _ rest _ => s.constructed && atEvent rest && opsSafe s.lines rest)
  && (!s.constructed || duplicatedIds (perLineList s.lineMap) == [])

/-! ## Conformance of traces (20_memory R82) -/

/-- The event leaves the line state `c` unchanged (R82 item 1). -/
def redundant (c : PerLine LineState) : Event → Bool
  | .dir l d => (PerLine.get c l).dir == dirState d
  | .set l v => (PerLine.get c l).dir == .output && (PerLine.get c l).lvl == driveLevel v
  | .get _ _ => false
  | .wait _ => false

/-- DATA0 to DATA3. -/
def isDataLine : Line → Bool
  | .data0 => true
  | .data1 => true
  | .data2 => true
  | .data3 => true
  | .rs => false
  | .rw => false
  | .e => false

/-- A `Set` on DATA0 to DATA3. -/
def isDataSet : Event → Bool
  | .set l _ => isDataLine l
  | .dir _ _ => false
  | .get _ _ => false
  | .wait _ => false

/-- An event on E. -/
def isEEvent : Event → Bool
  | .dir l _ => l == .e
  | .set l _ => l == .e
  | .get l _ => l == .e
  | .wait _ => false

/-- The places of a trace: a place of a data-line `Set` without saying which, every other event as it is. -/
def places (t : List Event) : List (Option Event) := t.map fun ev => if isDataSet ev then none else some ev

/-- The second trace conforms to the first, both from the line state `c`: they differ only in the three ways of 20_memory R82. Item 2: the data-line
`Set` events of a stretch without E events, E being Low, are put into any other order, each other event keeping its place; an order that
would leave the lines in another state is no such reordering (DEDUCED, log 12). -/
inductive Conforms (c : PerLine LineState) : List Event → List Event → Prop where
  | refl (t : List Event) : Conforms c t t
  | trans {t u v : List Event} : Conforms c t u → Conforms c u v → Conforms c t v
  | insertRedundant (pre post : List Event) (ev : Event) :
      redundant (linesAfter c pre) ev = true → Conforms c (pre ++ post) (pre ++ ev :: post)
  | deleteRedundant (pre post : List Event) (ev : Event) :
      redundant (linesAfter c pre) ev = true → Conforms c (pre ++ ev :: post) (pre ++ post)
  | reorderData (pre stretch stretch' post : List Event) :
      (linesAfter c pre).e.lvl = .low → stretch.all (fun ev => !isEEvent ev) = true →
      stretch.Perm stretch' → places stretch = places stretch' →
      linesAfter (linesAfter c pre) stretch = linesAfter (linesAfter c pre) stretch' →
      Conforms c (pre ++ stretch ++ post) (pre ++ stretch' ++ post)
  | raiseWait (pre post : List Event) (us us' : Nat) :
      us ≤ us' → Conforms c (pre ++ .wait us :: post) (pre ++ .wait us' :: post)
  | addWait (pre post : List Event) (us : Nat) : Conforms c (pre ++ post) (pre ++ .wait us :: post)

end Sys2Proof.Safety
end

