-- ==== Sys2Proof/Certificates/Slice0/Obligations.lean ====
section
/-! DEFINITION. The statements for the provers: what the rules of spec/ say the block does. -/

open Sys2Proof Sys2Proof.Machine Sys2Proof.Safety

/-! ## Stepping and taking requests -/

/-- An idle block takes the host's next offer: where it decodes to a host request, the step is `exec` of that request on the state with
the offer taken off the host's list; a running block's step is one move of its sequencer (60_exceptions R247, R251). -/
def Obligations.StepRunsDecodedRequest : Prop :=
  (∀ (s : State) (o : Offer) (rest : List Offer) (i : Instr),
    s.seq = .idle → s.host = o :: rest → decodeOffer o = .ok i → i.wellFormed = true →
    step s = exec i { s with host := rest }) ∧
  (∀ (s : State) (q : Instr) (ops : List Op) (b : Option Level),
    s.seq = .running q ops b → step s = .next (advance s))

/-- The table word that `withFetchWord` places is what the very next step runs, on a state that is idle and built, and that is `s` itself
(but for SEQ and the host's list) where `s` is built. The placing is the model's, log 5. -/
def Obligations.StepRunsTableWord : Prop :=
  ∀ (s : State) (nbits w : Nat) (i : Instr), decodeTableWord nbits w = some i →
    ∃ t : State, t.seq = .idle ∧ t.constructed = true ∧
      (s.constructed = true → t = { s with seq := .idle, host := [] }) ∧
      step (s.withFetchWord nbits w) = exec i t

/-- Every step of a running block whose state meets the invariant appends exactly one event, the one of the primitive it stands at,
and neither records an outcome nor takes an offer (10_state R34; 20_memory R65). -/
def Obligations.RunningStepPerformsOneEvent : Prop :=
  ∀ (s : State) (q : Instr) (p : Prim) (rest : List Op) (b : Option Level),
    inv s = true → s.seq = .running q (.bus p :: rest) b →
    ∃ (t : State) (ev : Event), step s = .next t ∧ isEventOf p ev = true ∧
      t.trace = s.trace ++ [ev] ∧ t.records = s.records ∧ t.host = s.host

/-- On a built block a step only appends to the trace, at most one event (10_state R38; 20_memory R77). -/
def Obligations.TraceIsAppendOnly : Prop :=
  ∀ s t : State, s.constructed = true → step s = .next t →
    ∃ evs : List Event, t.trace = s.trace ++ evs ∧ evs.length ≤ 1

/-- No step clears a recorded outcome; a step records at most one (60_exceptions R242, R246). -/
def Obligations.RecordsAreForGood : Prop :=
  ∀ s t : State, step s = .next t → ∃ rs : List Record, t.records = s.records ++ rs ∧ rs.length ≤ 1

/-- Once the block is built no step changes VARIANT, LINE_MAP, the parameters or that it is built; CURLINE is never set to
anything but 0 (10_state R23, R24, R32). -/
def Obligations.ConfigurationIsFixed : Prop :=
  ∀ s t : State, s.constructed = true → step s = .next t →
    t.constructed = true ∧ t.variant = s.variant ∧ t.lineMap = s.lineMap ∧ t.params = s.params ∧
      (t.curLine = s.curLine ∨ t.curLine = 0)

/-- A request offered to `exec` while another runs changes nothing, and a running block's step leaves the host's offers where they are:
such a request "waits" (60_exceptions R247). That exec answers the unchanged state is the model's choice, log 7. -/
def Obligations.RequestWaitsWhileRunning : Prop :=
  ∀ (s : State) (q : Instr) (ops : List Op) (b : Option Level), s.seq = .running q ops b →
    (∀ i : Instr, i.wellFormed = true → exec i s = .next s) ∧ (∃ t : State, step s = .next t ∧ t.host = s.host)

/-- What the host offers that is no host request is refused by name: an internal procedure, a text or a word that decodes to nothing
(30_encoding R90, R91; 93 U7). The names are the model's. -/
def Obligations.NonRequestsAreRefused : Prop :=
  ∀ (s : State) (o : Offer) (rest : List Offer), s.seq = .idle → s.host = o :: rest →
    (∀ i : Instr, decodeOffer o = .ok i → i.wellFormed = false → step s = .refused (.notARequest i)) ∧
    (∀ e : DecodeError, decodeOffer o = .error e → step s = .refused (.badOffer e))

/-- Taking an instruction, where exec answers a next state: DISPCTL changes only by the six display requests, ENTRY only by the four entry
requests, the geometry only where a power-on sequence starts, the variant, the line map, the lines and the trace only by CONSTRUCT;
FUNC, POLLS, the parameters, the device and the host's list never (10_state R23, R24, R30, R31, R38). RESULT stays or becomes empty, and at most
one outcome is recorded, the others staying (60_exceptions R242). That RESULT becomes empty is the model's choice, log 6, and that CONSTRUCT
keeps FUNC, DISPCTL, ENTRY and POLLS, which R41 leaves unspecified, is the model's choice, log 2; that a sequence's geometry is written when
it is taken is log 15. SEQ may change. -/
def Obligations.TakingChangesOnlyItsOwnRegisters : Prop :=
  ∀ (i : Instr) (s t : State), exec i s = .next t →
    (t.dispctl = s.dispctl ∨
      i ∈ [Instr.display, Instr.noDisplay, Instr.cursor, Instr.noCursor, Instr.blink, Instr.noBlink]) ∧
    (t.entry = s.entry ∨
      i ∈ [Instr.leftToRight, Instr.rightToLeft, Instr.autoscroll, Instr.noAutoscroll]) ∧
    ((t.numCols = s.numCols ∧ t.numLines = s.numLines ∧ t.curLine = s.curLine) ∨
      (∃ ver rs rw e d0 d1 d2 d3, i = .construct ver rs rw e d0 d1 d2 d3) ∨
      (∃ cols rows, i = .beginInit cols rows ∨ i = .powerOnSequence cols rows)) ∧
    ((t.constructed = s.constructed ∧ t.variant = s.variant ∧ t.lineMap = s.lineMap ∧ t.lines = s.lines ∧
        t.trace = s.trace) ∨
      (∃ ver rs rw e d0 d1 d2 d3, i = .construct ver rs rw e d0 d1 d2 d3)) ∧
    t.func = s.func ∧ t.polls = s.polls ∧ t.params = s.params ∧ t.device = s.device ∧ t.host = s.host ∧
    (t.result = s.result ∨ t.result = .empty) ∧ (t.records = s.records ∨ ∃ r : Record, t.records = s.records ++ [r])

/-! ## Reset and CONSTRUCT -/

/-- Before CONSTRUCT the block is not built and idle, no line is configured, RESULT and TRACE are empty and nothing is recorded (10_state
R41; 70_reset_and_hazards R272). The values the spec leaves open are not stated. -/
def Obligations.ResetState : Prop :=
  State.reset.constructed = false ∧ State.reset.seq = .idle ∧ State.reset.result = .empty ∧
    State.reset.trace = [] ∧ State.reset.records = [] ∧
    ∀ l : Line, PerLine.get State.reset.lines l = { dir := .unconfigured, lvl := .unknown }

/-- Before CONSTRUCT every other host request is refused with NotConstructed and emits no event: the refusal is recorded and nothing else
changes (70_reset_and_hazards R272; 60_exceptions R242). -/
def Obligations.RefusedBeforeConstruct : Prop :=
  ∀ (i : Instr) (s : State), s.seq = .idle → s.constructed = false → i.wellFormed = true →
    (∀ ver rs rw e d0 d1 d2 d3, i ≠ .construct ver rs rw e d0 d1 d2 d3) →
    exec i s = .next { s with records := s.records ++ [.refusal (.notConstructed i)] }

/-- A CONSTRUCT on a block already built is refused with ConstructTwice: recorded, and nothing else changes (40_init_sequencer R130;
60_exceptions R242). -/
def Obligations.SecondConstructIsRefused : Prop :=
  ∀ (s : State) (ver : Byte) (rs rw e d0 d1 d2 d3 : LineId), s.seq = .idle → s.constructed = true →
    exec (.construct ver rs rw e d0 d1 d2 d3) s =
      .next { s with records := s.records ++ [.refusal .constructTwice] }

/-- A CONSTRUCT with two roles on one line is refused with DuplicateLine, which records exactly the ids used more than once; the block
stays unbuilt and nothing else changes (40_init_sequencer R130; 60_exceptions R242). That each is recorded once is the model's choice, log 24;
the order of the ids, log 24 too, is not stated. -/
def Obligations.DuplicateLineIsRefused : Prop :=
  ∀ (s : State) (ver : Byte) (rs rw e d0 d1 d2 d3 : LineId), s.seq = .idle → s.constructed = false →
    ¬ [rs, rw, e, d0, d1, d2, d3].Nodup →
    ∃ ids : List LineId, ids ≠ [] ∧ ids.Nodup ∧
      (∀ x, x ∈ ids ↔ 2 ≤ [rs, rw, e, d0, d1, d2, d3].count x) ∧
      exec (.construct ver rs rw e d0 d1 d2 d3) s =
        .next { s with records := s.records ++ [.refusal (.duplicateLine ids)] }

/-- CONSTRUCT's `ver`: 1 gives V1, any other value gives V2 (30_encoding R100). -/
def Obligations.ConstructDecodesVariant : Prop :=
  ∀ (s : State) (ver : Byte) (rs rw e d0 d1 d2 d3 : LineId), s.seq = .idle → s.constructed = false →
    [rs, rw, e, d0, d1, d2, d3].Nodup →
    ∃ t : State, exec (.construct ver rs rw e d0 d1 d2 d3) s = .next t ∧
      (ver = 1 → t.variant = .v1) ∧ (ver ≠ 1 → t.variant = .v2)

/-- The state when CONSTRUCT is accepted, before its first event, which is Dir(RS, Output): operands latched, lines unconfigured, RESULT and
TRACE empty (10_state R41; 40_init_sequencer R130, R132; 70_reset_and_hazards R271). R41 leaves FUNC, DISPCTL, ENTRY and POLLS
unspecified, and the geometry until the sequence writes it: that the four are kept is the model's choice, log 2, and that the default
geometry is written at acceptance, before the first event, is the model's choice, log 15. -/
def Obligations.ConstructIsAccepted : Prop :=
  ∀ (s : State) (ver : Byte) (rs rw e d0 d1 d2 d3 : LineId), s.seq = .idle → s.constructed = false →
    [rs, rw, e, d0, d1, d2, d3].Nodup →
    ∃ rest : List Op, exec (.construct ver rs rw e d0 d1 d2 d3) s = .next
      { s with
        constructed := true
        variant := if ver = 1 then .v1 else .v2
        lineMap := { rs := rs, rw := rw, e := e, data0 := d0, data1 := d1, data2 := d2, data3 := d3 }
        lines := unconfiguredLines
        numCols := s.params.defaultCols
        numLines := s.params.defaultRows
        curLine := 0
        result := .empty
        trace := []
        seq := .running (.construct ver rs rw e d0 d1 d2 d3) (.bus (.dir .rs .output) :: rest) none }

/-- CONSTRUCT completes: with a device that answers each of the five step-8 handshakes within the bound, the block ends idle in the state
of 10_state R42 and the trace is exactly the power-on sequence of the variant (40_init_sequencer R130, R132, R134, R135, R136). -/
def Obligations.ConstructCompletes : Prop :=
  ∀ (s : State) (ver : Byte) (rs rw e d0 d1 d2 d3 : LineId) (j1 j2 j3 j4 j5 : Nat) (more : List Level),
    s.seq = .idle → s.constructed = false → [rs, rw, e, d0, d1, d2, d3].Nodup →
    s.device = .script (fiveAnswers s.params.busyLevel j1 j2 j3 j4 j5 ++ more) →
    WithinBound s j1 → WithinBound s j2 → WithinBound s j3 → WithinBound s j4 → WithinBound s j5 →
    ∃ t, exec (.construct ver rs rw e d0 d1 d2 d3) s = .next t ∧
      run (powerOnLength (if ver = 1 then .v1 else .v2) j1 j2 j3 j4 j5) t = .next
        (afterPowerOn
          { s with
            constructed := true
            variant := if ver = 1 then .v1 else .v2
            lineMap := { rs := rs, rw := rw, e := e, data0 := d0, data1 := d1, data2 := d2, data3 := d3 } }
          [] s.params.defaultCols s.params.defaultRows j1 j2 j3 j4 j5 more)

/-- BEGIN, and POWER_ON_SEQUENCE run by itself, complete from ANY idle, built block: the lines, the shadows and how the last request ended do
not matter (40_init_sequencer R131, R132, R137); the block ends in the state of 10_state R42 with the given geometry and the sequence
appended to the trace. That POWER_ON_SEQUENCE may run by itself is the model's choice, log 9, and so is that RESULT is then empty, log 6. -/
def Obligations.BeginCompletes : Prop :=
  ∀ (s : State) (i : Instr) (cols rows : Byte) (j1 j2 j3 j4 j5 : Nat) (more : List Level),
    i = .beginInit cols rows ∨ i = .powerOnSequence cols rows →
    s.seq = .idle → s.constructed = true →
    s.device = .script (fiveAnswers s.params.busyLevel j1 j2 j3 j4 j5 ++ more) →
    WithinBound s j1 → WithinBound s j2 → WithinBound s j3 → WithinBound s j4 → WithinBound s j5 →
    ∃ t, exec i s = .next t ∧
      run (powerOnLength s.variant j1 j2 j3 j4 j5) t = .next
        (afterPowerOn s s.trace cols rows j1 j2 j3 j4 j5 more)

/-- The end of the sequence: with the last wait left, one step appends it, sets the three shadows to what was sent and leaves the block
idle; DISPCTL is the low three bits of 0x0C, ENTRY the low two bits of 0x06 (40_init_sequencer R136). -/
def Obligations.SequenceSetsTheShadows : Prop :=
  (∀ (s : State) (q : Instr) (b : Option Level), s.seq = .running q [opWait 5000, .shadows] b →
    step s = .next
      { s with
        trace := s.trace ++ [.wait 5000]
        func := 0x28
        dispctl := 0b100
        entry := 0b10
        seq := .idle }) ∧
  (∀ (variant : Variant) (cols rows : Byte), ∃ pre : List Op,
    powerOnOps variant cols rows = pre ++ [opWait 5000, .shadows]) ∧
  (0b100#3 = (0x0C#8).setWidth 3 ∧ 0b10#2 = (0x06#8).setWidth 2)

/-- Event counts of the sequence: 15 events in steps 1 and 2, 36 or 45 in steps 3 to 7, `24 + 8k` for each command of step 8, `171 + 8K` or
`180 + 8K` in all, and exactly K Get events, K the sum of the iteration counts (40_init_sequencer R138). That
the block's events are this list is ConstructCompletes and BeginCompletes (O16, O17). -/
def Obligations.PowerOnEventCounts : Prop :=
  configureTrace.length = 7 + 8 ∧ (loneTrace .v1).length = 36 ∧ (loneTrace .v2).length = 45 ∧
    (∀ (v : Byte) (bs : List Level), (sendTrace v .low bs ++ [Event.wait 5000]).length = 24 + 8 * bs.length) ∧
    ∀ (busy : Level) (j1 j2 j3 j4 j5 : Nat),
      (powerOnTrace .v1 busy j1 j2 j3 j4 j5).length = 171 + 8 * ((j1 + 1) + (j2 + 1) + (j3 + 1) + (j4 + 1) + (j5 + 1)) ∧
      (powerOnTrace .v2 busy j1 j2 j3 j4 j5).length = 180 + 8 * ((j1 + 1) + (j2 + 1) + (j3 + 1) + (j4 + 1) + (j5 + 1)) ∧
      ∀ variant : Variant,
        (samples (powerOnTrace variant busy j1 j2 j3 j4 j5)).length
          = (j1 + 1) + (j2 + 1) + (j3 + 1) + (j4 + 1) + (j5 + 1)

/-! ## The primitives -/

/-- LineDir: the line's direction is the one given; a line that turns to output is at Unknown, every other level stays; other lines stay;
one event is appended; nothing else changes (20_memory R61). -/
def Obligations.LineDirRule : Prop :=
  ∀ (s : State) (l : Line) (d : Dir),
    (PerLine.get (lineDir l d s).lines l).dir = dirState d ∧
    (d = .output → (PerLine.get s.lines l).dir ≠ .output → (PerLine.get (lineDir l d s).lines l).lvl = .unknown) ∧
    (d = .input ∨ (PerLine.get s.lines l).dir = .output →
      (PerLine.get (lineDir l d s).lines l).lvl = (PerLine.get s.lines l).lvl) ∧
    (∀ l', l' ≠ l → PerLine.get (lineDir l d s).lines l' = PerLine.get s.lines l') ∧
    lineDir l d s = { s with lines := (lineDir l d s).lines, trace := s.trace ++ [.dir l d] }

/-- LineSet: on an output it drives the level and appends one event, leaving the line's direction, the other lines and everything else;
on any other line the fault LineNotOutput ends the running request, which is recorded, with no event (20_memory R62; 60_exceptions R242).
`rest` is whatever follows it in the microprogram: an event, a statement or nothing; `settle` goes on to the next event (O23), which is the
model's choice, log 15. -/
def Obligations.LineSetRule : Prop :=
  ∀ (s : State) (q : Instr) (l : Line) (v : Level) (rest : List Op) (b : Option Level),
    s.seq = .running q (opSet l v :: rest) b →
    ((PerLine.get s.lines l).dir = .output → ∃ c : PerLine LineState,
      PerLine.get c l = { dir := .output, lvl := driveLevel v } ∧
      (∀ l', l' ≠ l → PerLine.get c l' = PerLine.get s.lines l') ∧
      step s = .next (settle q b rest { s with lines := c, trace := s.trace ++ [.set l v] })) ∧
    ((PerLine.get s.lines l).dir ≠ .output →
      step s = .next { s with seq := .idle, records := s.records ++ [.fault (.lineNotOutput l)] })

/-- LineGet: on an input it takes the device's answer, whatever it is, into the local b and appends one event with it; on any other line
the fault LineNotInput is recorded and ends the request with no event (20_memory R63; 60_exceptions R242, R250). `rest` is whatever
follows it: an event, a statement (the poll decision among them) or nothing; that `settle` performs statements with this event (O23) is the
model's choice, log 15. -/
def Obligations.LineGetRule : Prop :=
  ∀ (s : State) (q : Instr) (l : Line) (rest : List Op) (b : Option Level),
    s.seq = .running q (opGet l :: rest) b →
    ((PerLine.get s.lines l).dir = .input → ∃ v : Level,
      (∀ w ws, s.device = .script (w :: ws) → v = w) ∧ (∀ w, s.device = .stuck w → v = w) ∧
      step s = .next (settle q (some v) rest
        { s with
          trace := s.trace ++ [.get l v]
          device := match s.device with
            | .script ws => .script ws.tail
            | .stuck w => .stuck w })) ∧
    ((PerLine.get s.lines l).dir ≠ .input →
      step s = .next { s with seq := .idle, records := s.records ++ [.fault (.lineNotInput l)] })

/-- Wait: one event, and nothing else but the position in the microprogram changes, whatever follows it (20_memory R64). And what
`settle` does with what follows an event: at an event SEQ stands there, at the end SEQ is Idle, and each statement makes the change the
pseudocode gives it (40_init_sequencer R132; 41_transfer R154; 42_handshake R170, R173, R174, R177, R178). The decision after a poll leaves
on a sample that is not BUSY_LEVEL; on a busy one it repeats the iteration, under a bound after counting it, and at the bound takes the exit
and raises the error instead. That the statements are performed with the event before them is the model's choice, log 15 (DEDUCED). -/
def Obligations.WaitRule : Prop :=
  (∀ (s : State) (q : Instr) (us : Nat) (rest : List Op) (b : Option Level), s.seq = .running q (opWait us :: rest) b →
    step s = .next (settle q b rest { s with trace := s.trace ++ [.wait us] })) ∧
  ∀ (s : State) (q : Instr) (rest : List Op) (b : Option Level),
    settle q b [] s = { s with seq := .idle } ∧
    (∀ p : Prim, settle q b (.bus p :: rest) s = { s with seq := .running q (.bus p :: rest) b }) ∧
    (∀ cols rows : Byte,
      settle q b (.geometry cols rows :: rest) s
        = settle q b rest { s with numCols := cols, numLines := rows, curLine := 0 }) ∧
    settle q b (.shadows :: rest) s = settle q b rest { s with func := 0x28, dispctl := 0b100, entry := 0b10 } ∧
    (s.params.pollLimit = none → settle q b (.clearPolls :: rest) s = settle q b rest s) ∧
    (∀ k : Nat, s.params.pollLimit = some k →
      settle q b (.clearPolls :: rest) s = settle q b rest { s with polls := 0 }) ∧
    (b ≠ some s.params.busyLevel →
      settle q b (.pollDecide :: rest) s = settle q none ([opDir .data3 .output, opSet .rw .low] ++ rest) s) ∧
    (b = some s.params.busyLevel → s.params.pollLimit = none →
      settle q b (.pollDecide :: rest) s = { s with seq := .running q (pollIterationOps ++ .pollDecide :: rest) none }) ∧
    (∀ k : Nat, b = some s.params.busyLevel → s.params.pollLimit = some k → s.polls + 1 ≠ k →
      settle q b (.pollDecide :: rest) s
        = { s with polls := s.polls + 1, seq := .running q (pollIterationOps ++ .pollDecide :: rest) none }) ∧
    (∀ k : Nat, b = some s.params.busyLevel → s.params.pollLimit = some k → s.polls + 1 = k →
      settle q b (.pollDecide :: rest) s
        = { s with polls := k, seq := .running q [opDir .data3 .output, opSet .rw .low, .raiseNotResponding] none }) ∧
    settle q b (.raiseNotResponding :: rest) s = { s with result := .deviceNotResponding, seq := .idle } ∧
    settle q b (.returnOne :: rest) s = settle q b rest { s with result := .value 1 }

/-! ## Invariants -/

/-- The state before CONSTRUCT meets the invariant. -/
def Obligations.InvariantHoldsAtReset : Prop := inv State.reset = true

/-- Every step keeps the invariant: a built, idle block has every line an output and RS, RW, E Low (41_transfer R156; 10_state R42); a running
one stands at an event with a microprogram that is safe from its lines; the seven line ids of a built block are distinct (10_state R24). -/
def Obligations.InvariantIsKept : Prop :=
  ∀ s t : State, inv s = true → step s = .next t → inv t = true

/-- Under the rules no primitive meets a line of the wrong direction: a step from a state of the invariant records neither LineNotOutput nor
LineNotInput (20_memory R62, R63; 60_exceptions R242); and no step at all stops with a fault. -/
def Obligations.NoStepFaultsOnALine : Prop :=
  (∀ s t : State, inv s = true → step s = .next t → ∀ l : Line,
    (.fault (.lineNotOutput l) ∈ t.records → .fault (.lineNotOutput l) ∈ s.records) ∧
    (.fault (.lineNotInput l) ∈ t.records → .fault (.lineNotInput l) ∈ s.records)) ∧
  (∀ (s : State) (f : Fault), step s ≠ .fault f)

/-- While E is driven High on a built block, a step changes no other line (41_transfer R155; 70_reset_and_hazards R277). -/
def Obligations.LinesAreStableWhileEIsHigh : Prop :=
  ∀ s t : State, inv s = true → s.constructed = true → step s = .next t → s.lines.e.lvl = .high →
    ∀ l : Line, l ≠ .e → PerLine.get t.lines l = PerLine.get s.lines l

/-- RESULT never holds a byte other than 1: a step leaves a value it found, or gives 1 (10_state R37; 41_transfer R154; 92 D15). -/
def Obligations.OnlyOneIsReturned : Prop :=
  ∀ (s t : State) (v : Byte), step s = .next t → t.result = .value v → s.result = .value v ∨ v = 1

/-! ## Transfers -/

/-- SEND by itself on a ready block completes as the transfer of its byte (41_transfer R152; 42_handshake R170, R171, R172, R173). That it may
run by itself is the model's choice, log 9, and so is that RESULT is then empty, log 6. -/
def Obligations.SendCompletes : Prop :=
  ∀ (s : State) (v : Byte) (mode : Level), Ready s → SendsByte (.send v mode) s s v mode .empty

/-- SEND called by a running request runs its events in place: after them the request goes on with `rest`, whatever that is, a statement as in
WRITE or nothing as in COMMAND among it (00_scope R12; 41_transfer R152). That a statement is performed with SEND's last event is the model's
choice, log 15. -/
def Obligations.SendRunsInPlace : Prop :=
  ∀ (s : State) (q : Instr) (rest : List Op) (b : Option Level) (v : Byte) (mode : Level) (j : Nat) (more : List Level),
    s.seq = .running q rest b → linesDriven s.lines = true →
    s.device = .script (pollAnswers s.params.busyLevel j ++ more) → WithinBound s j →
    ∃ t, exec (.send v mode) s = .next t ∧
      run (31 + 8 * j) t = .next (settle q none rest (afterSend s v mode j more))

/-- WRITE4BITS and PULSE_ENABLE by themselves on a ready block: 8 and 3 events, the data lines at the nibble, E back at Low (41_transfer R150,
R151). That they may run by themselves is the model's choice, log 9, and so is that RESULT is then empty, log 6. -/
def Obligations.NibbleAndStrobeComplete : Prop :=
  ∀ s : State, Ready s →
    (∀ n : Nibble, ∃ t, exec (.write4bits n) s = .next t ∧
      run 8 t = .next
        { s with
          lines := { s.lines with
            data0 := outputAt (nibbleLevel n 0), data1 := outputAt (nibbleLevel n 1),
            data2 := outputAt (nibbleLevel n 2), data3 := outputAt (nibbleLevel n 3) }
          trace := s.trace ++ nibTrace n
          result := .empty }) ∧
    (∃ t, exec .pulseEnable s = .next t ∧
      run 3 t = .next
        { s with trace := s.trace ++ [.set .e .high, .wait 50, .set .e .low], result := .empty })

/-- WAIT_FOR_READY by itself on an idle block with its lines driven and E Low, RS at any level (after a data byte it is High), whose device
answers busy `j` times and then ready: `13 + 8j` events, RS and RW Low, DATA3 left an output at Unknown, nothing else on the lines changed
(42_handshake R170 to R173, R176; 70_reset_and_hazards R278). That it may run by itself is the model's choice, log 9, and so is that RESULT
is then empty, log 6. -/
def Obligations.HandshakeCompletes : Prop :=
  ∀ (s : State) (j : Nat) (more : List Level), s.seq = .idle → s.constructed = true → linesDriven s.lines = true →
    s.device = .script (pollAnswers s.params.busyLevel j ++ more) → WithinBound s j →
    ∃ t, exec .waitForReady s = .next t ∧
      run (13 + 8 * j) t = .next
        { s with
          lines := linesAfterHandshake s.lines
          trace := s.trace ++ handshakeTrace (pollAnswers s.params.busyLevel j)
          polls := pollsAfter s j
          device := .script more
          result := .empty }

/-- COMMAND completes as the transfer of its byte as a command and writes no shadow, whatever the byte (41_transfer R153; 70_reset_and_hazards
R280). That RESULT is then empty is the model's choice, log 6. -/
def Obligations.CommandSends : Prop :=
  ∀ (s : State) (v : Byte), Ready s → SendsByte (.command v) s s v .low .empty

/-- WRITE completes as the transfer of its byte as data and returns 1 (41_transfer R154). -/
def Obligations.WriteSends : Prop :=
  ∀ (s : State) (v : Byte), Ready s → SendsByte (.write v) s s v .high (.value 1)

/-- CLEAR, HOME and the two scroll requests complete as the transfers of 0x01, 0x02, 0x18 and 0x1C and write no shadow and no geometry
(43_command_surface R190, R191, R199, R200). That RESULT is then empty is the model's choice, log 6. -/
def Obligations.FixedCommandsSend : Prop :=
  ∀ s : State, Ready s →
    SendsByte .clear s s 0x01 .low .empty ∧ SendsByte .home s s 0x02 .low .empty ∧
    SendsByte .scrollDisplayLeft s s 0x18 .low .empty ∧ SendsByte .scrollDisplayRight s s 0x1C .low .empty

/-- SET_CURSOR completes, wherever the clamped row has an offset, as the transfer of `0x80 | ((col + offset) mod 256)`, and writes no shadow and
no geometry (43_command_surface R192). That RESULT is then empty is the model's choice, log 6. -/
def Obligations.SetCursorSends : Prop :=
  ∀ (s : State) (col row off : Byte), Ready s →
    ([0x00, 0x40, 0x14, 0x54] : List Byte)[(if s.numLines ≤ row then 0 else row.toNat)]? = some off →
    SendsByte (.setCursor col row) s s (0x80 ||| (col + off)) .low .empty

/-- SET_CURSOR's byte and fault: the clamp, the byte from the table entry, which bit 7 of the sum does not change, and, where the clamped row
has no entry (only with NUMLINES above 4), the fault, recorded with no event (30_encoding R95). -/
def Obligations.SetCursorByteAndFault : Prop :=
  ∀ (s : State) (col row : Byte), s.seq = .idle → s.constructed = true →
    let eff : Byte := if s.numLines ≤ row then 0 else row
    effRow s.numLines row = eff ∧
    (∀ off : Byte, ([0x00, 0x40, 0x14, 0x54] : List Byte)[eff.toNat]? = some off →
      ddramCmd s.numLines col row = some (0x80 ||| (col + off)) ∧
      (0x80#8 ||| (col + off)) = (0x80#8 ||| ((col + off) &&& 0x7F#8))) ∧
    (4 ≤ eff.toNat → 4 < s.numLines.toNat ∧
      exec (.setCursor col row) s =
        .next { s with records := s.records ++ [.fault (.rowOffsetOutOfTable row)] })

/-- The six display-control requests write their one bit of DISPCTL and complete as the transfer of `0x08 | DISPCTL` (43_command_surface R193 to
R198). That RESULT is then empty is the model's choice, log 6. -/
def Obligations.DisplayRequestsSend : Prop :=
  ∀ s : State, Ready s →
    (∀ d : BitVec 3, d = s.dispctl ||| 0b100 →
      SendsByte .display s { s with dispctl := d } (0x08 ||| d.setWidth 8) .low .empty) ∧
    (∀ d : BitVec 3, d = s.dispctl &&& 0b011 →
      SendsByte .noDisplay s { s with dispctl := d } (0x08 ||| d.setWidth 8) .low .empty) ∧
    (∀ d : BitVec 3, d = s.dispctl ||| 0b010 →
      SendsByte .cursor s { s with dispctl := d } (0x08 ||| d.setWidth 8) .low .empty) ∧
    (∀ d : BitVec 3, d = s.dispctl &&& 0b101 →
      SendsByte .noCursor s { s with dispctl := d } (0x08 ||| d.setWidth 8) .low .empty) ∧
    (∀ d : BitVec 3, d = s.dispctl ||| 0b001 →
      SendsByte .blink s { s with dispctl := d } (0x08 ||| d.setWidth 8) .low .empty) ∧
    (∀ d : BitVec 3, d = s.dispctl &&& 0b110 →
      SendsByte .noBlink s { s with dispctl := d } (0x08 ||| d.setWidth 8) .low .empty)

/-- The four entry-mode requests write their one bit of ENTRY and complete as the transfer of `0x04 | ENTRY` (43_command_surface R201 to R204).
That RESULT is then empty is the model's choice, log 6. -/
def Obligations.EntryRequestsSend : Prop :=
  ∀ s : State, Ready s →
    (∀ d : BitVec 2, d = s.entry ||| 0b10 →
      SendsByte .leftToRight s { s with entry := d } (0x04 ||| d.setWidth 8) .low .empty) ∧
    (∀ d : BitVec 2, d = s.entry &&& 0b01 →
      SendsByte .rightToLeft s { s with entry := d } (0x04 ||| d.setWidth 8) .low .empty) ∧
    (∀ d : BitVec 2, d = s.entry ||| 0b01 →
      SendsByte .autoscroll s { s with entry := d } (0x04 ||| d.setWidth 8) .low .empty) ∧
    (∀ d : BitVec 2, d = s.entry &&& 0b10 →
      SendsByte .noAutoscroll s { s with entry := d } (0x04 ||| d.setWidth 8) .low .empty)

/-- CREATE_CHAR completes as nine transfers: the set-CGRAM-address command of the masked slot, then the eight bitmap bytes as data in index
order, and writes no shadow and no geometry (43_command_surface R205). That RESULT is then empty is the model's choice, log 6. -/
def Obligations.CreateCharSends : Prop :=
  ∀ (s : State) (slot : Byte) (b : Bitmap) (j0 j1 j2 j3 j4 j5 j6 j7 j8 : Nat) (more : List Level), Ready s →
    (∀ j ∈ [j0, j1, j2, j3, j4, j5, j6, j7, j8], WithinBound s j) →
    s.device = .script ([j0, j1, j2, j3, j4, j5, j6, j7, j8].flatMap (pollAnswers s.params.busyLevel) ++ more) →
    ∃ t, exec (.createChar slot b) s = .next t ∧
      run (279 + 8 * (j0 + j1 + j2 + j3 + j4 + j5 + j6 + j7 + j8)) t = .next
        { s with
          lines := linesAfterSend b.b7
          trace := s.trace ++ sendTrace (0x40 ||| ((slot &&& 0x07) <<< 3)) .low (pollAnswers s.params.busyLevel j0)
            ++ dataTrace s.params.busyLevel
              [(b.b0, j1), (b.b1, j2), (b.b2, j3), (b.b3, j4), (b.b4, j5), (b.b5, j6), (b.b6, j7), (b.b7, j8)]
          polls := pollsAfter s j8
          device := .script more
          result := .empty }

/-- Each command-surface request of one byte gives the trace of its register write followed by COMMAND, after any number of steps, whatever the
device answers and the host offers next (30_encoding R105). -/
def Obligations.RequestsExpandToCommand : Prop :=
  ∀ (s s1 : State) (i : Instr) (v : Byte), s.seq = .idle → s.constructed = true → expansion s i = some (s1, v) →
    ∃ t u : State, exec i s = .next t ∧ exec (.command v) s1 = .next u ∧
      ∀ n : Nat, traceOf (run n t) = traceOf (run n u)

/-- Setting a field of a shadow and then clearing it restores the shadow if the field was 0 before, and the two bytes sent differ in that
field's bit alone; for the three pairs of DISPCTL and the two of ENTRY (43_command_surface R207). -/
def Obligations.TogglesAreReversible : Prop :=
  (∀ x ∈ [(Instr.display, Instr.noDisplay, 0b100#3), (.cursor, .noCursor, 0b010#3), (.blink, .noBlink, 0b001#3)],
    ∀ s u : State, s.seq = .idle → s.constructed = true → u.seq = .idle → u.constructed = true →
      ∃ t w : State, exec x.1 s = .next t ∧ exec x.2.1 u = .next w ∧
        (u.dispctl = t.dispctl →
          (s.dispctl &&& x.2.2 = 0 → w.dispctl = s.dispctl) ∧
          (0x08#8 ||| t.dispctl.setWidth 8) ^^^ (0x08#8 ||| w.dispctl.setWidth 8) = x.2.2.setWidth 8)) ∧
  (∀ x ∈ [(Instr.leftToRight, Instr.rightToLeft, 0b10#2), (.autoscroll, .noAutoscroll, 0b01#2)],
    ∀ s u : State, s.seq = .idle → s.constructed = true → u.seq = .idle → u.constructed = true →
      ∃ t w : State, exec x.1 s = .next t ∧ exec x.2.1 u = .next w ∧
        (u.entry = t.entry →
          (s.entry &&& x.2.2 = 0 → w.entry = s.entry) ∧
          (0x04#8 ||| t.entry.setWidth 8) ^^^ (0x04#8 ||| w.entry.setWidth 8) = x.2.2.setWidth 8))

/-! ## The handshake that does not end -/

/-- The bounded handshake, wherever it stands in a microprogram and whatever level it finds RS and RW at, gives up after `k` busy samples in a
row: the exit events run, RS and RW are Low, RESULT is DeviceNotResponding, the block is idle, and nothing of what the request had left,
`rest`, happens (42_handshake R177; 60_exceptions R243). -/
def Obligations.BoundedHandshakeGivesUp : Prop :=
  ∀ (s : State) (q : Instr) (rest : List Op) (b : Option Level) (k : Nat) (more : List Level),
    s.seq = .running q (waitForReadyOps ++ rest) b → linesDriven s.lines = true →
    s.params.pollLimit = some k → 1 ≤ k →
    s.device = .script (List.replicate k s.params.busyLevel ++ more) →
    run (5 + 8 * k) s = .next
      { s with
        lines := linesAfterHandshake s.lines
        trace := s.trace ++ handshakeTrace (List.replicate k s.params.busyLevel)
        polls := k
        device := .script more
        seq := .idle
        result := .deviceNotResponding }

/-- Under a bound, every request of one byte (CLEAR, HOME, SET_CURSOR where the clamped row has an offset, the scroll requests, the six display
and the four entry requests, COMMAND and WRITE), and SEND in both modes, whose handshake is never answered ready returns the error instead
of its result; a toggle has already changed its shadow, and WRITE returns no 1 (60_exceptions R243). That SEND may run by itself is log 9. -/
def Obligations.RequestsGiveUpUnderABound : Prop :=
  ∀ s : State, Ready s →
    (∀ (i : Instr) (s1 : State) (v : Byte), expansion s i = some (s1, v) → SendGivesUp i s s1 v .low) ∧
    (∀ v : Byte, SendGivesUp (.command v) s s v .low) ∧ (∀ v : Byte, SendGivesUp (.write v) s s v .high) ∧
    ∀ (v : Byte) (m : Level), SendGivesUp (.send v m) s s v m

/-- The unbounded handshake hangs on a device that always answers busy: after any number of steps the request is still running and has
returned nothing (42_handshake R178; 60_exceptions R244). First, any microprogram that stands at the handshake; then any request, and SEND
in both modes, WAIT_FOR_READY and POWER_ON_SEQUENCE by themselves (log 9), once it is accepted. That RESULT is empty while a request runs is
the model's choice, log 6. -/
def Obligations.UnboundedHandshakeHangs : Prop :=
  (∀ (s : State) (q : Instr) (rest : List Op) (b : Option Level) (n : Nat),
    s.seq = .running q (waitForReadyOps ++ rest) b → linesDriven s.lines = true →
    s.params.pollLimit = none → s.device = .stuck s.params.busyLevel →
    ∃ u : State, run n s = .next u ∧ u.result = s.result ∧
      ∃ (ops : List Op) (b' : Option Level), u.seq = .running q ops b') ∧
  (∀ (i : Instr) (s t : State) (n : Nat),
    (i.wellFormed = true ∨ (∃ (v : Byte) (m : Level), i = .send v m) ∨ i = .waitForReady ∨
      ∃ cols rows : Byte, i = .powerOnSequence cols rows) →
    inv s = true → s.seq = .idle → s.params.pollLimit = none → s.device = .stuck s.params.busyLevel →
    exec i s = .next t → t.seq ≠ .idle →
    ∃ u : State, run n t = .next u ∧ u.result = .empty ∧
      ∃ (ops : List Op) (b : Option Level), u.seq = .running i ops b) ∧
  (∀ (s : State) (v : Byte) (m : Level), Ready s →
    ∃ t u w : State, exec (.command v) s = .next t ∧ exec (.write v) s = .next u ∧ exec (.send v m) s = .next w ∧
      t.seq ≠ .idle ∧ u.seq ≠ .idle ∧ w.seq ≠ .idle)

/-- A device stuck at a level that is not BUSY_LEVEL never stops a transfer: the handshake takes one sample and 13 steps, wherever it stands, and
every request of one byte, COMMAND, WRITE and SEND in both modes complete in 31 steps, whatever the bound of at least 1
(70_reset_and_hazards R282; 42_handshake R180). That RESULT is then empty, except after WRITE, is the model's choice, log 6; that SEND may
run by itself is log 9; that the statements of `rest` before its first event are performed with the handshake's last event is log 15. -/
def Obligations.StuckReadyDeviceNeverStopsATransfer : Prop :=
  (∀ (s : State) (q : Instr) (rest : List Op) (b : Option Level) (x : Level),
    s.seq = .running q (waitForReadyOps ++ rest) b → linesDriven s.lines = true →
    s.device = .stuck x → x ≠ s.params.busyLevel →
    run 13 s = .next (settle q none rest
      { s with
        lines := linesAfterHandshake s.lines
        trace := s.trace ++ handshakeTrace [x]
        polls := pollsAfter s 0 })) ∧
  (∀ s : State, Ready s →
    (∀ (i : Instr) (s1 : State) (v : Byte), expansion s i = some (s1, v) → SendsAtOnce i s s1 v .low .empty) ∧
    (∀ v : Byte, SendsAtOnce (.command v) s s v .low .empty) ∧
    (∀ v : Byte, SendsAtOnce (.write v) s s v .high (.value 1)) ∧
    ∀ (v : Byte) (m : Level), SendsAtOnce (.send v m) s s v m .empty)

/-! ## Encodings -/

/-- CREATE_CHAR's address byte: the slot masked to 3 bits, `0x40 | (slot << 3)`, one of 0x40, 0x48, ..., 0x78 (30_encoding R96). -/
def Obligations.CgramCommandByte : Prop :=
  ∀ slot : Byte, effSlot slot = slot &&& 0x07 ∧ (effSlot slot).toNat < 8 ∧
    cgramCmd slot = 0x40 ||| (effSlot slot <<< 3) ∧ (cgramCmd slot).toNat = 0x40 + 8 * (effSlot slot).toNat

/-- The display-control and entry-mode bytes and the place of each field: D, C, B at bits 2, 1, 0 and ID, S at bits 1, 0 (30_encoding R97, R98). -/
def Obligations.ShadowCommandBytes : Prop :=
  (∀ d : BitVec 3, dispctlCmd d = 0x08 ||| d.setWidth 8 ∧
    (dispctlCmd d).getLsbD 2 = d.getLsbD 2 ∧ (dispctlCmd d).getLsbD 1 = d.getLsbD 1 ∧
    (dispctlCmd d).getLsbD 0 = d.getLsbD 0) ∧
  (∀ t : BitVec 2, entryCmd t = 0x04 ||| t.setWidth 8 ∧
    (entryCmd t).getLsbD 1 = t.getLsbD 1 ∧ (entryCmd t).getLsbD 0 = t.getLsbD 0) ∧
  (dispctlD = 0b100 ∧ dispctlC = 0b010 ∧ dispctlB = 0b001 ∧ entryID = 0b10 ∧ entryS = 0b01)

/-- The decoder reads back what the encoder writes: every host request, with every operand at every value (30_encoding R104). The forms the
encoder picks (hexadecimal bytes, `p` and a number for a line) are the model's, log 10. -/
def Obligations.TextRoundTrip : Prop :=
  ∀ (i : Instr) (cs : List Char), encode i = some cs → decode cs = .ok i

/-- A few written requests and words decode to what they stand for: R104's examples and vectors of 95 (sanity). R106 gives a set of requests for
a word: that 0x001 is read as CLEAR and not as COMMAND 0x01, and the order of the list for 0x008, are the model's choice, log 8. -/
def Obligations.WrittenRequestsDecode : Prop :=
  decode "BEGIN 16, 2".toList = .ok (.beginInit 16 2) ∧
  decode "SET_CURSOR 5, 1".toList = .ok (.setCursor 5 1) ∧
  decode "WRITE 0x48".toList = .ok (.write 0x48) ∧
  decodeBusWord 0b000001000 [] = [.noDisplay, .noCursor, .noBlink, .command 0x08] ∧
  decodeTableWord 16 0b000000001 = some .clear ∧ decodeTableWord 16 0b101001000 = some (.write 0x48)

/-- The first bus word an instruction sends, whatever the registers, is one of its own row's `match` and `mask` in the opcode table
(30_encoding R106). -/
def Obligations.BusWordsMatchTheirRow : Prop :=
  ∀ (i : Instr) (numLines : Byte) (dispctl : BitVec 3) (entry : BitVec 2) (w pattern mask : BusWord),
    (busWords numLines dispctl entry i).head? = some w → tableRow i = some (pattern, mask) → w &&& mask = pattern

/-- "Such a word decodes to the set of requests that emit it": the decoder's set for the words a request sends holds a request of the same row
that sends the same words from the same registers (30_encoding R106). It need not be the very request: SET_CURSOR's word is read as a
column of row 0 (SET_CURSOR 5, 1 as SET_CURSOR 0x45, 0) and CREATE_CHAR's slot as 0 to 7; that reading is the model's choice, log 8. -/
def Obligations.BusWordsDecodeToTheirSenders : Prop :=
  ∀ (i : Instr) (numLines : Byte) (dispctl : BitVec 3) (entry : BitVec 2) (w : BusWord) (ws : List BusWord),
    i.wellFormed = true → (∃ row, tableRow i = some row) → busWords numLines dispctl entry i = w :: ws →
    ∃ i' ∈ decodeBusWord w (ws.map busWordByte),
      tableRow i' = tableRow i ∧ busWords numLines dispctl entry i' = w :: ws

/-! ## What an observer of the lines sees -/

/-- From idle lines, the trace of a transfer shows the device exactly two writes, the high nibble and then the low nibble of the byte with the
RS level of the mode and RW Low, which are the bus word `{RS, byte}`, and two reads for each poll iteration (30_encoding R91, R92;
20_memory R66, R67, R71; 42_handshake R176). And the machine emits its bus words: the events that exec and run append for a request of the
opcode table show the device exactly `busWords` of that request, and those of BEGIN, POWER_ON_SEQUENCE and CONSTRUCT show it the lone nibbles
of the variant and then the nibbles of `busWords` (40_init_sequencer R134, R135). That an internal procedure may run by itself is log 9. -/
def Obligations.TransferShowsItsBusWord : Prop :=
  (∀ (c : PerLine LineState) (v : Byte) (m : Level) (bs : List Level), linesIdle c = true →
    writtenNibbles c (sendTrace v m bs) = [(m, v.extractLsb' 4 4), (m, v.extractLsb' 0 4)] ∧
    observedBusWords c (sendTrace v m bs) = [busWord m v] ∧
    ((strobes c (sendTrace v m bs)).filter fun x => x.rw == some .high).length = 2 * bs.length ∧
    samples (sendTrace v m bs) = bs.map fun b => (.data3, b)) ∧
  (∀ (i : Instr) (s : State) (js : List Nat) (more : List Level), Ready s → tableRow i ≠ none →
    js.length = (busWords s.numLines s.dispctl s.entry i).length → (∀ j ∈ js, WithinBound s j) →
    s.device = .script (js.flatMap (pollAnswers s.params.busyLevel) ++ more) →
    ∃ (t u : State) (evs : List Event), exec i s = .next t ∧ run (31 * js.length + 8 * js.sum) t = .next u ∧
      u.seq = .idle ∧ u.trace = s.trace ++ evs ∧
      observedBusWords s.lines evs = busWords s.numLines s.dispctl s.entry i) ∧
  (∀ (i : Instr) (s : State) (cols rows : Byte) (j1 j2 j3 j4 j5 : Nat) (more : List Level), Ready s →
    i = .beginInit cols rows ∨ i = .powerOnSequence cols rows →
    s.device = .script (fiveAnswers s.params.busyLevel j1 j2 j3 j4 j5 ++ more) →
    (∀ j ∈ [j1, j2, j3, j4, j5], WithinBound s j) →
    ∃ (t u : State) (evs : List Event), exec i s = .next t ∧ run (powerOnLength s.variant j1 j2 j3 j4 j5) t = .next u ∧
      u.seq = .idle ∧ u.trace = s.trace ++ evs ∧
      writtenNibbles s.lines evs = loneWrites s.variant
        ++ (busWords s.numLines s.dispctl s.entry i).flatMap wordNibbles) ∧
  (∀ (s : State) (ver : Byte) (rs rw e d0 d1 d2 d3 : LineId) (j1 j2 j3 j4 j5 : Nat) (more : List Level),
    s.seq = .idle → s.constructed = false → [rs, rw, e, d0, d1, d2, d3].Nodup →
    s.device = .script (fiveAnswers s.params.busyLevel j1 j2 j3 j4 j5 ++ more) →
    (∀ j ∈ [j1, j2, j3, j4, j5], WithinBound s j) →
    ∃ t u : State, exec (.construct ver rs rw e d0 d1 d2 d3) s = .next t ∧
      run (powerOnLength (if ver = 1 then .v1 else .v2) j1 j2 j3 j4 j5) t = .next u ∧ u.seq = .idle ∧
      writtenNibbles unconfiguredLines u.trace = loneWrites (if ver = 1 then .v1 else .v2)
        ++ (busWords s.numLines s.dispctl s.entry (.construct ver rs rw e d0 d1 d2 d3)).flatMap wordNibbles)

/-- The nine bus words of CREATE_CHAR put bitmap byte k at CGRAM address `(slot & 7) * 8 + k` (20_memory R73, R75; 43_command_surface R205). The
device side is the observer's reading of R73, log 11 (and its wrap, log 22, which no glyph reaches but row 7 of slot 7, after which no byte
follows). That the block emits these words is O53. -/
def Obligations.GlyphRowsLandInCgram : Prop :=
  ∀ (numLines : Byte) (dispctl : BitVec 3) (entry : BitVec 2) (slot : Byte) (b : Bitmap),
    deviceWrites none (busWords numLines dispctl entry (.createChar slot b)) =
      (bitmapBytes b).zipIdx.map fun x => (.cgram, (slot.toNat % 8) * 8 + x.2, x.1)

/-- Conforming traces have the same Get events in the same order, with the same answers (20_memory R82). What conforms is R82 as the model reads
its item 2: log 12 (DEDUCED). -/
def Obligations.ConformingTracesSampleAlike : Prop :=
  ∀ (c : PerLine LineState) (t u : List Event), Conforms c t u → samples t = samples u

/-- Conforming traces show the device the same strobes: the same writes with the same nibbles and RS levels, the same reads, in the same order,
and leave the lines in the same state (20_memory R82, R70). What conforms is R82 as the model reads its item 2, an order of the data-line
Sets that leaves the lines in the same state: log 12 (DEDUCED), without which this would be false. -/
def Obligations.ConformingTracesStrobeAlike : Prop :=
  ∀ (c : PerLine LineState) (t u : List Event), Conforms c t u →
    strobes c t = strobes c u ∧ linesAfter c t = linesAfter c u

/-- A conforming trace takes at least the time of the reference: every wait is a lower bound (20_memory R64, R82; 70_reset_and_hazards R284).
What conforms is R82 as the model reads its item 2: log 12 (DEDUCED). -/
def Obligations.ConformingTracesAreNoFaster : Prop :=
  ∀ (c : PerLine LineState) (t u : List Event), Conforms c t u → minTime t ≤ minTime u

/-- The least durations: `200 + 60k` microseconds for a transfer of k iterations, and 96 700 and 101 800 for the power-on sequence of V1 and V2
when every handshake is ready at once (70_reset_and_hazards R283). That the block's events are these lists is SendCompletes (O29) and
ConstructCompletes, BeginCompletes (O16, O17). -/
def Obligations.MinimumDurations : Prop :=
  (∀ (v : Byte) (m : Level) (bs : List Level), minTime (sendTrace v m bs) = 200 + 60 * bs.length) ∧
  (∀ busy : Level, minTime (powerOnTrace .v1 busy 0 0 0 0 0) = 96700 ∧ minTime (powerOnTrace .v2 busy 0 0 0 0 0) = 101800)

/-! ## Giving up between transfers, and the platform's lines -/

/-- Under a bound, the requests of more than one transfer stop at the handshake that is never answered ready, after the transfers `js` before it
(60_exceptions R243). BEGIN (and POWER_ON_SEQUENCE by itself, log 9) and CONSTRUCT stop inside step 8: no wait and no command after it, step
9 skipped, so the shadows are as before, the geometry already the new one (vector V-I7); CREATE_CHAR has sent only some of its bytes (V-F4).
That CONSTRUCT's shadows keep their values from before it is log 2. -/
def Obligations.SequencesGiveUpUnderABound : Prop :=
  (∀ (s : State) (i : Instr) (cols rows v : Byte) (js : List Nat) (k : Nat) (more : List Level),
    i = .beginInit cols rows ∨ i = .powerOnSequence cols rows →
    s.seq = .idle → s.constructed = true → s.params.pollLimit = some k → 1 ≤ k → (∀ j ∈ js, j < k) →
    ([0x08, 0x01, 0x06, 0x02, 0x0C] : List Byte)[js.length]? = some v →
    s.device = .script (js.flatMap (pollAnswers s.params.busyLevel) ++ List.replicate k s.params.busyLevel ++ more) →
    ∃ t, exec i s = .next t ∧
      run (gaveUpPowerOnLength s.variant js k) t = .next
        (gaveUpPowerOn s s.trace cols rows (([0x08, 0x01, 0x06, 0x02, 0x0C] : List Byte).zip js) v k more)) ∧
  (∀ (s : State) (ver : Byte) (rs rw e d0 d1 d2 d3 : LineId) (v : Byte) (js : List Nat) (k : Nat) (more : List Level),
    s.seq = .idle → s.constructed = false → [rs, rw, e, d0, d1, d2, d3].Nodup →
    s.params.pollLimit = some k → 1 ≤ k → (∀ j ∈ js, j < k) →
    ([0x08, 0x01, 0x06, 0x02, 0x0C] : List Byte)[js.length]? = some v →
    s.device = .script (js.flatMap (pollAnswers s.params.busyLevel) ++ List.replicate k s.params.busyLevel ++ more) →
    ∃ t, exec (.construct ver rs rw e d0 d1 d2 d3) s = .next t ∧
      run (gaveUpPowerOnLength (if ver = 1 then .v1 else .v2) js k) t = .next
        (gaveUpPowerOn
          { s with
            constructed := true
            variant := if ver = 1 then .v1 else .v2
            lineMap := { rs := rs, rw := rw, e := e, data0 := d0, data1 := d1, data2 := d2, data3 := d3 } }
          [] s.params.defaultCols s.params.defaultRows (([0x08, 0x01, 0x06, 0x02, 0x0C] : List Byte).zip js) v k more)) ∧
  (∀ (s : State) (slot : Byte) (bm : Bitmap) (words : List (Byte × Level)) (v : Byte) (m : Level) (js : List Nat) (k : Nat)
    (more : List Level), Ready s →
    words = (0x40 ||| ((slot &&& 0x07) <<< 3), .low)
      :: [bm.b0, bm.b1, bm.b2, bm.b3, bm.b4, bm.b5, bm.b6, bm.b7].map (fun x => (x, .high)) →
    s.params.pollLimit = some k → 1 ≤ k → (∀ j ∈ js, j < k) → words[js.length]? = some (v, m) →
    s.device = .script (js.flatMap (pollAnswers s.params.busyLevel) ++ List.replicate k s.params.busyLevel ++ more) →
    ∃ t, exec (.createChar slot bm) s = .next t ∧
      run ((js.map fun j => 31 + 8 * j).sum + (23 + 8 * k)) t = .next
        { s with
          lines := linesAfterSend v
          trace := s.trace ++ transfersTrace s.params.busyLevel (words.zip js)
            ++ sendTrace v m (List.replicate k s.params.busyLevel)
          polls := k
          device := .script more
          result := .deviceNotResponding })

/-- The seven roles stand for seven platform lines through LINE_MAP: on a built block of the invariant no two traces look alike at the platform,
and each step is seen there as its event on the line of its role (30_encoding R94; 10_state R24). -/
def Obligations.PlatformTraceFollowsTheLineMap : Prop :=
  ∀ s : State, inv s = true → s.constructed = true →
    (∀ x y : List Event, x.map (platformEvent s.lineMap) = y.map (platformEvent s.lineMap) → x = y) ∧
    ∀ t : State, step s = .next t → ∃ evs : List Event, evs.length ≤ 1 ∧ t.trace = s.trace ++ evs ∧
      platformTrace t = platformTrace s ++ evs.map (platformEvent s.lineMap)
end

