-- ==== Sys2Proof/Laws/State.lean ====
section
/-! SUPPORT. Each field of the state after each named update of Machine/Ops.lean. -/

namespace Sys2Proof.Machine

@[simp] theorem State.appendEvent_constructed (ev : Event) (s : State) : (State.appendEvent ev s).constructed = s.constructed := rfl
@[simp] theorem State.appendEvent_variant (ev : Event) (s : State) : (State.appendEvent ev s).variant = s.variant := rfl
@[simp] theorem State.appendEvent_lineMap (ev : Event) (s : State) : (State.appendEvent ev s).lineMap = s.lineMap := rfl
@[simp] theorem State.appendEvent_lines (ev : Event) (s : State) : (State.appendEvent ev s).lines = s.lines := rfl
@[simp] theorem State.appendEvent_func (ev : Event) (s : State) : (State.appendEvent ev s).func = s.func := rfl
@[simp] theorem State.appendEvent_dispctl (ev : Event) (s : State) : (State.appendEvent ev s).dispctl = s.dispctl := rfl
@[simp] theorem State.appendEvent_entry (ev : Event) (s : State) : (State.appendEvent ev s).entry = s.entry := rfl
@[simp] theorem State.appendEvent_numCols (ev : Event) (s : State) : (State.appendEvent ev s).numCols = s.numCols := rfl
@[simp] theorem State.appendEvent_numLines (ev : Event) (s : State) : (State.appendEvent ev s).numLines = s.numLines := rfl
@[simp] theorem State.appendEvent_curLine (ev : Event) (s : State) : (State.appendEvent ev s).curLine = s.curLine := rfl
@[simp] theorem State.appendEvent_seq (ev : Event) (s : State) : (State.appendEvent ev s).seq = s.seq := rfl
@[simp] theorem State.appendEvent_polls (ev : Event) (s : State) : (State.appendEvent ev s).polls = s.polls := rfl
@[simp] theorem State.appendEvent_result (ev : Event) (s : State) : (State.appendEvent ev s).result = s.result := rfl
@[simp] theorem State.appendEvent_trace (ev : Event) (s : State) : (State.appendEvent ev s).trace = s.trace ++ [ev] := rfl
@[simp] theorem State.appendEvent_records (ev : Event) (s : State) : (State.appendEvent ev s).records = s.records := rfl
@[simp] theorem State.appendEvent_params (ev : Event) (s : State) : (State.appendEvent ev s).params = s.params := rfl
@[simp] theorem State.appendEvent_device (ev : Event) (s : State) : (State.appendEvent ev s).device = s.device := rfl
@[simp] theorem State.appendEvent_host (ev : Event) (s : State) : (State.appendEvent ev s).host = s.host := rfl

@[simp] theorem State.withLines_constructed (c : PerLine LineState) (s : State) : (State.withLines c s).constructed = s.constructed := rfl
@[simp] theorem State.withLines_variant (c : PerLine LineState) (s : State) : (State.withLines c s).variant = s.variant := rfl
@[simp] theorem State.withLines_lineMap (c : PerLine LineState) (s : State) : (State.withLines c s).lineMap = s.lineMap := rfl
@[simp] theorem State.withLines_lines (c : PerLine LineState) (s : State) : (State.withLines c s).lines = c := rfl
@[simp] theorem State.withLines_func (c : PerLine LineState) (s : State) : (State.withLines c s).func = s.func := rfl
@[simp] theorem State.withLines_dispctl (c : PerLine LineState) (s : State) : (State.withLines c s).dispctl = s.dispctl := rfl
@[simp] theorem State.withLines_entry (c : PerLine LineState) (s : State) : (State.withLines c s).entry = s.entry := rfl
@[simp] theorem State.withLines_numCols (c : PerLine LineState) (s : State) : (State.withLines c s).numCols = s.numCols := rfl
@[simp] theorem State.withLines_numLines (c : PerLine LineState) (s : State) : (State.withLines c s).numLines = s.numLines := rfl
@[simp] theorem State.withLines_curLine (c : PerLine LineState) (s : State) : (State.withLines c s).curLine = s.curLine := rfl
@[simp] theorem State.withLines_seq (c : PerLine LineState) (s : State) : (State.withLines c s).seq = s.seq := rfl
@[simp] theorem State.withLines_polls (c : PerLine LineState) (s : State) : (State.withLines c s).polls = s.polls := rfl
@[simp] theorem State.withLines_result (c : PerLine LineState) (s : State) : (State.withLines c s).result = s.result := rfl
@[simp] theorem State.withLines_trace (c : PerLine LineState) (s : State) : (State.withLines c s).trace = s.trace := rfl
@[simp] theorem State.withLines_records (c : PerLine LineState) (s : State) : (State.withLines c s).records = s.records := rfl
@[simp] theorem State.withLines_params (c : PerLine LineState) (s : State) : (State.withLines c s).params = s.params := rfl
@[simp] theorem State.withLines_device (c : PerLine LineState) (s : State) : (State.withLines c s).device = s.device := rfl
@[simp] theorem State.withLines_host (c : PerLine LineState) (s : State) : (State.withLines c s).host = s.host := rfl

@[simp] theorem State.withSeq_constructed (q : Seq) (s : State) : (State.withSeq q s).constructed = s.constructed := rfl
@[simp] theorem State.withSeq_variant (q : Seq) (s : State) : (State.withSeq q s).variant = s.variant := rfl
@[simp] theorem State.withSeq_lineMap (q : Seq) (s : State) : (State.withSeq q s).lineMap = s.lineMap := rfl
@[simp] theorem State.withSeq_lines (q : Seq) (s : State) : (State.withSeq q s).lines = s.lines := rfl
@[simp] theorem State.withSeq_func (q : Seq) (s : State) : (State.withSeq q s).func = s.func := rfl
@[simp] theorem State.withSeq_dispctl (q : Seq) (s : State) : (State.withSeq q s).dispctl = s.dispctl := rfl
@[simp] theorem State.withSeq_entry (q : Seq) (s : State) : (State.withSeq q s).entry = s.entry := rfl
@[simp] theorem State.withSeq_numCols (q : Seq) (s : State) : (State.withSeq q s).numCols = s.numCols := rfl
@[simp] theorem State.withSeq_numLines (q : Seq) (s : State) : (State.withSeq q s).numLines = s.numLines := rfl
@[simp] theorem State.withSeq_curLine (q : Seq) (s : State) : (State.withSeq q s).curLine = s.curLine := rfl
@[simp] theorem State.withSeq_seq (q : Seq) (s : State) : (State.withSeq q s).seq = q := rfl
@[simp] theorem State.withSeq_polls (q : Seq) (s : State) : (State.withSeq q s).polls = s.polls := rfl
@[simp] theorem State.withSeq_result (q : Seq) (s : State) : (State.withSeq q s).result = s.result := rfl
@[simp] theorem State.withSeq_trace (q : Seq) (s : State) : (State.withSeq q s).trace = s.trace := rfl
@[simp] theorem State.withSeq_records (q : Seq) (s : State) : (State.withSeq q s).records = s.records := rfl
@[simp] theorem State.withSeq_params (q : Seq) (s : State) : (State.withSeq q s).params = s.params := rfl
@[simp] theorem State.withSeq_device (q : Seq) (s : State) : (State.withSeq q s).device = s.device := rfl
@[simp] theorem State.withSeq_host (q : Seq) (s : State) : (State.withSeq q s).host = s.host := rfl

@[simp] theorem State.withPolls_constructed (n : Nat) (s : State) : (State.withPolls n s).constructed = s.constructed := rfl
@[simp] theorem State.withPolls_variant (n : Nat) (s : State) : (State.withPolls n s).variant = s.variant := rfl
@[simp] theorem State.withPolls_lineMap (n : Nat) (s : State) : (State.withPolls n s).lineMap = s.lineMap := rfl
@[simp] theorem State.withPolls_lines (n : Nat) (s : State) : (State.withPolls n s).lines = s.lines := rfl
@[simp] theorem State.withPolls_func (n : Nat) (s : State) : (State.withPolls n s).func = s.func := rfl
@[simp] theorem State.withPolls_dispctl (n : Nat) (s : State) : (State.withPolls n s).dispctl = s.dispctl := rfl
@[simp] theorem State.withPolls_entry (n : Nat) (s : State) : (State.withPolls n s).entry = s.entry := rfl
@[simp] theorem State.withPolls_numCols (n : Nat) (s : State) : (State.withPolls n s).numCols = s.numCols := rfl
@[simp] theorem State.withPolls_numLines (n : Nat) (s : State) : (State.withPolls n s).numLines = s.numLines := rfl
@[simp] theorem State.withPolls_curLine (n : Nat) (s : State) : (State.withPolls n s).curLine = s.curLine := rfl
@[simp] theorem State.withPolls_seq (n : Nat) (s : State) : (State.withPolls n s).seq = s.seq := rfl
@[simp] theorem State.withPolls_polls (n : Nat) (s : State) : (State.withPolls n s).polls = n := rfl
@[simp] theorem State.withPolls_result (n : Nat) (s : State) : (State.withPolls n s).result = s.result := rfl
@[simp] theorem State.withPolls_trace (n : Nat) (s : State) : (State.withPolls n s).trace = s.trace := rfl
@[simp] theorem State.withPolls_records (n : Nat) (s : State) : (State.withPolls n s).records = s.records := rfl
@[simp] theorem State.withPolls_params (n : Nat) (s : State) : (State.withPolls n s).params = s.params := rfl
@[simp] theorem State.withPolls_device (n : Nat) (s : State) : (State.withPolls n s).device = s.device := rfl
@[simp] theorem State.withPolls_host (n : Nat) (s : State) : (State.withPolls n s).host = s.host := rfl

@[simp] theorem State.withResult_constructed (r : Result) (s : State) : (State.withResult r s).constructed = s.constructed := rfl
@[simp] theorem State.withResult_variant (r : Result) (s : State) : (State.withResult r s).variant = s.variant := rfl
@[simp] theorem State.withResult_lineMap (r : Result) (s : State) : (State.withResult r s).lineMap = s.lineMap := rfl
@[simp] theorem State.withResult_lines (r : Result) (s : State) : (State.withResult r s).lines = s.lines := rfl
@[simp] theorem State.withResult_func (r : Result) (s : State) : (State.withResult r s).func = s.func := rfl
@[simp] theorem State.withResult_dispctl (r : Result) (s : State) : (State.withResult r s).dispctl = s.dispctl := rfl
@[simp] theorem State.withResult_entry (r : Result) (s : State) : (State.withResult r s).entry = s.entry := rfl
@[simp] theorem State.withResult_numCols (r : Result) (s : State) : (State.withResult r s).numCols = s.numCols := rfl
@[simp] theorem State.withResult_numLines (r : Result) (s : State) : (State.withResult r s).numLines = s.numLines := rfl
@[simp] theorem State.withResult_curLine (r : Result) (s : State) : (State.withResult r s).curLine = s.curLine := rfl
@[simp] theorem State.withResult_seq (r : Result) (s : State) : (State.withResult r s).seq = s.seq := rfl
@[simp] theorem State.withResult_polls (r : Result) (s : State) : (State.withResult r s).polls = s.polls := rfl
@[simp] theorem State.withResult_result (r : Result) (s : State) : (State.withResult r s).result = r := rfl
@[simp] theorem State.withResult_trace (r : Result) (s : State) : (State.withResult r s).trace = s.trace := rfl
@[simp] theorem State.withResult_records (r : Result) (s : State) : (State.withResult r s).records = s.records := rfl
@[simp] theorem State.withResult_params (r : Result) (s : State) : (State.withResult r s).params = s.params := rfl
@[simp] theorem State.withResult_device (r : Result) (s : State) : (State.withResult r s).device = s.device := rfl
@[simp] theorem State.withResult_host (r : Result) (s : State) : (State.withResult r s).host = s.host := rfl

@[simp] theorem State.withGeometry_constructed (cols rows : Byte) (s : State) : (State.withGeometry cols rows s).constructed = s.constructed := rfl
@[simp] theorem State.withGeometry_variant (cols rows : Byte) (s : State) : (State.withGeometry cols rows s).variant = s.variant := rfl
@[simp] theorem State.withGeometry_lineMap (cols rows : Byte) (s : State) : (State.withGeometry cols rows s).lineMap = s.lineMap := rfl
@[simp] theorem State.withGeometry_lines (cols rows : Byte) (s : State) : (State.withGeometry cols rows s).lines = s.lines := rfl
@[simp] theorem State.withGeometry_func (cols rows : Byte) (s : State) : (State.withGeometry cols rows s).func = s.func := rfl
@[simp] theorem State.withGeometry_dispctl (cols rows : Byte) (s : State) : (State.withGeometry cols rows s).dispctl = s.dispctl := rfl
@[simp] theorem State.withGeometry_entry (cols rows : Byte) (s : State) : (State.withGeometry cols rows s).entry = s.entry := rfl
@[simp] theorem State.withGeometry_numCols (cols rows : Byte) (s : State) : (State.withGeometry cols rows s).numCols = cols := rfl
@[simp] theorem State.withGeometry_numLines (cols rows : Byte) (s : State) : (State.withGeometry cols rows s).numLines = rows := rfl
@[simp] theorem State.withGeometry_curLine (cols rows : Byte) (s : State) : (State.withGeometry cols rows s).curLine = 0 := rfl
@[simp] theorem State.withGeometry_seq (cols rows : Byte) (s : State) : (State.withGeometry cols rows s).seq = s.seq := rfl
@[simp] theorem State.withGeometry_polls (cols rows : Byte) (s : State) : (State.withGeometry cols rows s).polls = s.polls := rfl
@[simp] theorem State.withGeometry_result (cols rows : Byte) (s : State) : (State.withGeometry cols rows s).result = s.result := rfl
@[simp] theorem State.withGeometry_trace (cols rows : Byte) (s : State) : (State.withGeometry cols rows s).trace = s.trace := rfl
@[simp] theorem State.withGeometry_records (cols rows : Byte) (s : State) : (State.withGeometry cols rows s).records = s.records := rfl
@[simp] theorem State.withGeometry_params (cols rows : Byte) (s : State) : (State.withGeometry cols rows s).params = s.params := rfl
@[simp] theorem State.withGeometry_device (cols rows : Byte) (s : State) : (State.withGeometry cols rows s).device = s.device := rfl
@[simp] theorem State.withGeometry_host (cols rows : Byte) (s : State) : (State.withGeometry cols rows s).host = s.host := rfl

@[simp] theorem State.withSequenceShadows_constructed (s : State) : (State.withSequenceShadows s).constructed = s.constructed := rfl
@[simp] theorem State.withSequenceShadows_variant (s : State) : (State.withSequenceShadows s).variant = s.variant := rfl
@[simp] theorem State.withSequenceShadows_lineMap (s : State) : (State.withSequenceShadows s).lineMap = s.lineMap := rfl
@[simp] theorem State.withSequenceShadows_lines (s : State) : (State.withSequenceShadows s).lines = s.lines := rfl
@[simp] theorem State.withSequenceShadows_func (s : State) : (State.withSequenceShadows s).func = funcAfterSequence := rfl
@[simp] theorem State.withSequenceShadows_dispctl (s : State) : (State.withSequenceShadows s).dispctl = dispctlAfterSequence := rfl
@[simp] theorem State.withSequenceShadows_entry (s : State) : (State.withSequenceShadows s).entry = entryAfterSequence := rfl
@[simp] theorem State.withSequenceShadows_numCols (s : State) : (State.withSequenceShadows s).numCols = s.numCols := rfl
@[simp] theorem State.withSequenceShadows_numLines (s : State) : (State.withSequenceShadows s).numLines = s.numLines := rfl
@[simp] theorem State.withSequenceShadows_curLine (s : State) : (State.withSequenceShadows s).curLine = s.curLine := rfl
@[simp] theorem State.withSequenceShadows_seq (s : State) : (State.withSequenceShadows s).seq = s.seq := rfl
@[simp] theorem State.withSequenceShadows_polls (s : State) : (State.withSequenceShadows s).polls = s.polls := rfl
@[simp] theorem State.withSequenceShadows_result (s : State) : (State.withSequenceShadows s).result = s.result := rfl
@[simp] theorem State.withSequenceShadows_trace (s : State) : (State.withSequenceShadows s).trace = s.trace := rfl
@[simp] theorem State.withSequenceShadows_records (s : State) : (State.withSequenceShadows s).records = s.records := rfl
@[simp] theorem State.withSequenceShadows_params (s : State) : (State.withSequenceShadows s).params = s.params := rfl
@[simp] theorem State.withSequenceShadows_device (s : State) : (State.withSequenceShadows s).device = s.device := rfl
@[simp] theorem State.withSequenceShadows_host (s : State) : (State.withSequenceShadows s).host = s.host := rfl

@[simp] theorem State.withDispctl_constructed (d : BitVec 3) (s : State) : (State.withDispctl d s).constructed = s.constructed := rfl
@[simp] theorem State.withDispctl_variant (d : BitVec 3) (s : State) : (State.withDispctl d s).variant = s.variant := rfl
@[simp] theorem State.withDispctl_lineMap (d : BitVec 3) (s : State) : (State.withDispctl d s).lineMap = s.lineMap := rfl
@[simp] theorem State.withDispctl_lines (d : BitVec 3) (s : State) : (State.withDispctl d s).lines = s.lines := rfl
@[simp] theorem State.withDispctl_func (d : BitVec 3) (s : State) : (State.withDispctl d s).func = s.func := rfl
@[simp] theorem State.withDispctl_dispctl (d : BitVec 3) (s : State) : (State.withDispctl d s).dispctl = d := rfl
@[simp] theorem State.withDispctl_entry (d : BitVec 3) (s : State) : (State.withDispctl d s).entry = s.entry := rfl
@[simp] theorem State.withDispctl_numCols (d : BitVec 3) (s : State) : (State.withDispctl d s).numCols = s.numCols := rfl
@[simp] theorem State.withDispctl_numLines (d : BitVec 3) (s : State) : (State.withDispctl d s).numLines = s.numLines := rfl
@[simp] theorem State.withDispctl_curLine (d : BitVec 3) (s : State) : (State.withDispctl d s).curLine = s.curLine := rfl
@[simp] theorem State.withDispctl_seq (d : BitVec 3) (s : State) : (State.withDispctl d s).seq = s.seq := rfl
@[simp] theorem State.withDispctl_polls (d : BitVec 3) (s : State) : (State.withDispctl d s).polls = s.polls := rfl
@[simp] theorem State.withDispctl_result (d : BitVec 3) (s : State) : (State.withDispctl d s).result = s.result := rfl
@[simp] theorem State.withDispctl_trace (d : BitVec 3) (s : State) : (State.withDispctl d s).trace = s.trace := rfl
@[simp] theorem State.withDispctl_records (d : BitVec 3) (s : State) : (State.withDispctl d s).records = s.records := rfl
@[simp] theorem State.withDispctl_params (d : BitVec 3) (s : State) : (State.withDispctl d s).params = s.params := rfl
@[simp] theorem State.withDispctl_device (d : BitVec 3) (s : State) : (State.withDispctl d s).device = s.device := rfl
@[simp] theorem State.withDispctl_host (d : BitVec 3) (s : State) : (State.withDispctl d s).host = s.host := rfl

@[simp] theorem State.withEntry_constructed (t : BitVec 2) (s : State) : (State.withEntry t s).constructed = s.constructed := rfl
@[simp] theorem State.withEntry_variant (t : BitVec 2) (s : State) : (State.withEntry t s).variant = s.variant := rfl
@[simp] theorem State.withEntry_lineMap (t : BitVec 2) (s : State) : (State.withEntry t s).lineMap = s.lineMap := rfl
@[simp] theorem State.withEntry_lines (t : BitVec 2) (s : State) : (State.withEntry t s).lines = s.lines := rfl
@[simp] theorem State.withEntry_func (t : BitVec 2) (s : State) : (State.withEntry t s).func = s.func := rfl
@[simp] theorem State.withEntry_dispctl (t : BitVec 2) (s : State) : (State.withEntry t s).dispctl = s.dispctl := rfl
@[simp] theorem State.withEntry_entry (t : BitVec 2) (s : State) : (State.withEntry t s).entry = t := rfl
@[simp] theorem State.withEntry_numCols (t : BitVec 2) (s : State) : (State.withEntry t s).numCols = s.numCols := rfl
@[simp] theorem State.withEntry_numLines (t : BitVec 2) (s : State) : (State.withEntry t s).numLines = s.numLines := rfl
@[simp] theorem State.withEntry_curLine (t : BitVec 2) (s : State) : (State.withEntry t s).curLine = s.curLine := rfl
@[simp] theorem State.withEntry_seq (t : BitVec 2) (s : State) : (State.withEntry t s).seq = s.seq := rfl
@[simp] theorem State.withEntry_polls (t : BitVec 2) (s : State) : (State.withEntry t s).polls = s.polls := rfl
@[simp] theorem State.withEntry_result (t : BitVec 2) (s : State) : (State.withEntry t s).result = s.result := rfl
@[simp] theorem State.withEntry_trace (t : BitVec 2) (s : State) : (State.withEntry t s).trace = s.trace := rfl
@[simp] theorem State.withEntry_records (t : BitVec 2) (s : State) : (State.withEntry t s).records = s.records := rfl
@[simp] theorem State.withEntry_params (t : BitVec 2) (s : State) : (State.withEntry t s).params = s.params := rfl
@[simp] theorem State.withEntry_device (t : BitVec 2) (s : State) : (State.withEntry t s).device = s.device := rfl
@[simp] theorem State.withEntry_host (t : BitVec 2) (s : State) : (State.withEntry t s).host = s.host := rfl

@[simp] theorem State.addRecord_constructed (r : Record) (s : State) : (State.addRecord r s).constructed = s.constructed := rfl
@[simp] theorem State.addRecord_variant (r : Record) (s : State) : (State.addRecord r s).variant = s.variant := rfl
@[simp] theorem State.addRecord_lineMap (r : Record) (s : State) : (State.addRecord r s).lineMap = s.lineMap := rfl
@[simp] theorem State.addRecord_lines (r : Record) (s : State) : (State.addRecord r s).lines = s.lines := rfl
@[simp] theorem State.addRecord_func (r : Record) (s : State) : (State.addRecord r s).func = s.func := rfl
@[simp] theorem State.addRecord_dispctl (r : Record) (s : State) : (State.addRecord r s).dispctl = s.dispctl := rfl
@[simp] theorem State.addRecord_entry (r : Record) (s : State) : (State.addRecord r s).entry = s.entry := rfl
@[simp] theorem State.addRecord_numCols (r : Record) (s : State) : (State.addRecord r s).numCols = s.numCols := rfl
@[simp] theorem State.addRecord_numLines (r : Record) (s : State) : (State.addRecord r s).numLines = s.numLines := rfl
@[simp] theorem State.addRecord_curLine (r : Record) (s : State) : (State.addRecord r s).curLine = s.curLine := rfl
@[simp] theorem State.addRecord_seq (r : Record) (s : State) : (State.addRecord r s).seq = s.seq := rfl
@[simp] theorem State.addRecord_polls (r : Record) (s : State) : (State.addRecord r s).polls = s.polls := rfl
@[simp] theorem State.addRecord_result (r : Record) (s : State) : (State.addRecord r s).result = s.result := rfl
@[simp] theorem State.addRecord_trace (r : Record) (s : State) : (State.addRecord r s).trace = s.trace := rfl
@[simp] theorem State.addRecord_records (r : Record) (s : State) : (State.addRecord r s).records = s.records ++ [r] := rfl
@[simp] theorem State.addRecord_params (r : Record) (s : State) : (State.addRecord r s).params = s.params := rfl
@[simp] theorem State.addRecord_device (r : Record) (s : State) : (State.addRecord r s).device = s.device := rfl
@[simp] theorem State.addRecord_host (r : Record) (s : State) : (State.addRecord r s).host = s.host := rfl

@[simp] theorem State.withDevice_constructed (d : Device) (s : State) : (State.withDevice d s).constructed = s.constructed := rfl
@[simp] theorem State.withDevice_variant (d : Device) (s : State) : (State.withDevice d s).variant = s.variant := rfl
@[simp] theorem State.withDevice_lineMap (d : Device) (s : State) : (State.withDevice d s).lineMap = s.lineMap := rfl
@[simp] theorem State.withDevice_lines (d : Device) (s : State) : (State.withDevice d s).lines = s.lines := rfl
@[simp] theorem State.withDevice_func (d : Device) (s : State) : (State.withDevice d s).func = s.func := rfl
@[simp] theorem State.withDevice_dispctl (d : Device) (s : State) : (State.withDevice d s).dispctl = s.dispctl := rfl
@[simp] theorem State.withDevice_entry (d : Device) (s : State) : (State.withDevice d s).entry = s.entry := rfl
@[simp] theorem State.withDevice_numCols (d : Device) (s : State) : (State.withDevice d s).numCols = s.numCols := rfl
@[simp] theorem State.withDevice_numLines (d : Device) (s : State) : (State.withDevice d s).numLines = s.numLines := rfl
@[simp] theorem State.withDevice_curLine (d : Device) (s : State) : (State.withDevice d s).curLine = s.curLine := rfl
@[simp] theorem State.withDevice_seq (d : Device) (s : State) : (State.withDevice d s).seq = s.seq := rfl
@[simp] theorem State.withDevice_polls (d : Device) (s : State) : (State.withDevice d s).polls = s.polls := rfl
@[simp] theorem State.withDevice_result (d : Device) (s : State) : (State.withDevice d s).result = s.result := rfl
@[simp] theorem State.withDevice_trace (d : Device) (s : State) : (State.withDevice d s).trace = s.trace := rfl
@[simp] theorem State.withDevice_records (d : Device) (s : State) : (State.withDevice d s).records = s.records := rfl
@[simp] theorem State.withDevice_params (d : Device) (s : State) : (State.withDevice d s).params = s.params := rfl
@[simp] theorem State.withDevice_device (d : Device) (s : State) : (State.withDevice d s).device = d := rfl
@[simp] theorem State.withDevice_host (d : Device) (s : State) : (State.withDevice d s).host = s.host := rfl

@[simp] theorem State.withHost_constructed (h : List Offer) (s : State) : (State.withHost h s).constructed = s.constructed := rfl
@[simp] theorem State.withHost_variant (h : List Offer) (s : State) : (State.withHost h s).variant = s.variant := rfl
@[simp] theorem State.withHost_lineMap (h : List Offer) (s : State) : (State.withHost h s).lineMap = s.lineMap := rfl
@[simp] theorem State.withHost_lines (h : List Offer) (s : State) : (State.withHost h s).lines = s.lines := rfl
@[simp] theorem State.withHost_func (h : List Offer) (s : State) : (State.withHost h s).func = s.func := rfl
@[simp] theorem State.withHost_dispctl (h : List Offer) (s : State) : (State.withHost h s).dispctl = s.dispctl := rfl
@[simp] theorem State.withHost_entry (h : List Offer) (s : State) : (State.withHost h s).entry = s.entry := rfl
@[simp] theorem State.withHost_numCols (h : List Offer) (s : State) : (State.withHost h s).numCols = s.numCols := rfl
@[simp] theorem State.withHost_numLines (h : List Offer) (s : State) : (State.withHost h s).numLines = s.numLines := rfl
@[simp] theorem State.withHost_curLine (h : List Offer) (s : State) : (State.withHost h s).curLine = s.curLine := rfl
@[simp] theorem State.withHost_seq (h : List Offer) (s : State) : (State.withHost h s).seq = s.seq := rfl
@[simp] theorem State.withHost_polls (h : List Offer) (s : State) : (State.withHost h s).polls = s.polls := rfl
@[simp] theorem State.withHost_result (h : List Offer) (s : State) : (State.withHost h s).result = s.result := rfl
@[simp] theorem State.withHost_trace (h : List Offer) (s : State) : (State.withHost h s).trace = s.trace := rfl
@[simp] theorem State.withHost_records (h : List Offer) (s : State) : (State.withHost h s).records = s.records := rfl
@[simp] theorem State.withHost_params (h : List Offer) (s : State) : (State.withHost h s).params = s.params := rfl
@[simp] theorem State.withHost_device (h : List Offer) (s : State) : (State.withHost h s).device = s.device := rfl
@[simp] theorem State.withHost_host (h : List Offer) (s : State) : (State.withHost h s).host = h := rfl

end Sys2Proof.Machine
end

