-- ==== Sys2Proof/Laws/Ops.lean ====
section
/-! SUPPORT. One lemma for each shared operation of Machine/Ops.lean, saying what it can do and what it leaves alone. -/

namespace Sys2Proof.Machine

/-! ## Lines -/

@[simp] theorem perLine_get_put_same {α : Type} (p : PerLine α) (l : Line) (x : α) :
    PerLine.get (PerLine.put p l x) l = x := by
  cases l <;> rfl

theorem perLine_get_put_other {α : Type} (p : PerLine α) (l l' : Line) (x : α) (h : l' ≠ l) :
    PerLine.get (PerLine.put p l x) l' = PerLine.get p l' := by
  cases l <;> cases l' <;> first | rfl | exact absurd rfl h

/-- Two records that agree at every role are equal. -/
theorem perLine_ext {α : Type} (p q : PerLine α) (h : ∀ l, PerLine.get p l = PerLine.get q l) : p = q := by
  have h1 := h .rs; have h2 := h .rw; have h3 := h .e; have h4 := h .data0
  have h5 := h .data1; have h6 := h .data2; have h7 := h .data3
  cases p; cases q
  simp_all [PerLine.get]

theorem dirLines_other (l l' : Line) (d : Dir) (c : PerLine LineState) (h : l' ≠ l) :
    PerLine.get (dirLines l d c) l' = PerLine.get c l' :=
  perLine_get_put_other _ _ _ _ h

theorem setLines_other (l l' : Line) (v : Level) (c : PerLine LineState) (h : l' ≠ l) :
    PerLine.get (setLines l v c) l' = PerLine.get c l' :=
  perLine_get_put_other _ _ _ _ h

@[simp] theorem dirLines_same_dir (l : Line) (d : Dir) (c : PerLine LineState) :
    (PerLine.get (dirLines l d c) l).dir = dirState d := by
  simp [dirLines]

@[simp] theorem setLines_same (l : Line) (v : Level) (c : PerLine LineState) :
    PerLine.get (setLines l v c) l = { dir := (PerLine.get c l).dir, lvl := driveLevel v } := by
  simp [setLines]

/-! ## Primitives -/

theorem lineSet_of_output {l : Line} {v : Level} {s : State} (h : (PerLine.get s.lines l).dir = .output) :
    lineSet l v s = .ok ((s.withLines (setLines l v s.lines)).appendEvent (.set l v)) := by
  simp [lineSet, h]

theorem lineGet_of_input {l : Line} {s : State} (h : (PerLine.get s.lines l).dir = .input) :
    lineGet l s = .ok (deviceAnswer s.device s.trace l,
      (s.withDevice (deviceAfter s.device)).appendEvent (.get l (deviceAnswer s.device s.trace l))) := by
  simp [lineGet, h]

/-- A primitive that goes through appends one event and touches nothing but the lines and the device. -/
theorem perform_ok {p : Prim} {b b' : Option Level} {s t : State} (h : perform p b s = .ok (b', t)) :
    ∃ ev, t = { s with lines := t.lines, device := t.device, trace := s.trace ++ [ev] } := by
  cases p with
  | dir l d =>
    simp only [perform, Except.ok.injEq, Prod.mk.injEq] at h
    obtain ⟨-, rfl⟩ := h
    exact ⟨.dir l d, rfl⟩
  | set l v =>
    simp only [perform, lineSet] at h
    split at h
    · rename_i u hu
      split at hu
      · cases hu
        cases h
        exact ⟨.set l v, rfl⟩
      · cases hu
    · cases h
  | get l =>
    simp only [perform, lineGet] at h
    split at h
    · rename_i v u hu
      split at hu
      · cases hu
        cases h
        exact ⟨.get l (deviceAnswer s.device s.trace l), rfl⟩
      · cases hu
    · cases h
  | wait us =>
    simp only [perform, Except.ok.injEq, Prod.mk.injEq] at h
    obtain ⟨-, rfl⟩ := h
    exact ⟨.wait us, rfl⟩

/-- The only faults a primitive raises are the two direction faults, on the line it names. -/
theorem perform_error {p : Prim} {b : Option Level} {s : State} {f : Fault} (h : perform p b s = .error f) :
    (∃ l v, p = .set l v ∧ f = .lineNotOutput l ∧ (PerLine.get s.lines l).dir ≠ .output) ∨
    (∃ l, p = .get l ∧ f = .lineNotInput l ∧ (PerLine.get s.lines l).dir ≠ .input) := by
  cases p with
  | dir l d => simp [perform] at h
  | set l v =>
    left
    simp only [perform, lineSet] at h
    split at h
    · cases h
    · rename_i hu
      split at hu
      · cases hu
      · rename_i hd
        cases hu
        cases h
        exact ⟨l, v, rfl, rfl, hd⟩
  | get l =>
    right
    simp only [perform, lineGet] at h
    split at h
    · cases h
    · rename_i hu
      split at hu
      · cases hu
      · rename_i hd
        cases hu
        cases h
        exact ⟨l, rfl, rfl, hd⟩
  | wait us => simp [perform] at h

/-! ## The sequencer -/

theorem clearPolls_frame (s : State) : clearPolls s = { s with polls := (clearPolls s).polls } := by
  unfold clearPolls
  split <;> rfl

/-- The end of an iteration writes SEQ and POLLS only. -/
theorem decidePoll_frame (q : Instr) (b : Option Level) (rest : List Op) (s : State) :
    decidePoll q b rest s =
      { s with seq := (decidePoll q b rest s).seq, polls := (decidePoll q b rest s).polls } := by
  unfold decidePoll
  split
  · split
    · rfl
    · dsimp only
      split <;> rfl
  · rfl

/-- Settling performs the statements before the next event: it writes SEQ, POLLS, RESULT, the geometry and the shadows, and nothing
else. -/
theorem settle_frame (q : Instr) (b : Option Level) (ops : List Op) (s : State) :
    ∃ seq polls result numCols numLines curLine func dispctl entry,
      settle q b ops s =
        { s with
          seq := seq, polls := polls, result := result, numCols := numCols, numLines := numLines,
          curLine := curLine, func := func, dispctl := dispctl, entry := entry } := by
  induction ops generalizing s with
  | nil => exact ⟨_, _, _, _, _, _, _, _, _, rfl⟩
  | cons op rest ih =>
    cases op with
    | bus p => exact ⟨_, _, _, _, _, _, _, _, _, rfl⟩
    | geometry cols rows =>
      obtain ⟨a1, a2, a3, a4, a5, a6, a7, a8, a9, h⟩ := ih (s.withGeometry cols rows)
      exact ⟨a1, a2, a3, a4, a5, a6, a7, a8, a9, by rw [settle, h]; rfl⟩
    | shadows =>
      obtain ⟨a1, a2, a3, a4, a5, a6, a7, a8, a9, h⟩ := ih s.withSequenceShadows
      exact ⟨a1, a2, a3, a4, a5, a6, a7, a8, a9, by rw [settle, h]; rfl⟩
    | clearPolls =>
      obtain ⟨a1, a2, a3, a4, a5, a6, a7, a8, a9, h⟩ := ih (clearPolls s)
      exact ⟨a1, a2, a3, a4, a5, a6, a7, a8, a9, by rw [settle, h, clearPolls_frame]⟩
    | pollDecide => exact ⟨_, _, _, _, _, _, _, _, _, by rw [settle]; exact decidePoll_frame q b rest s⟩
    | raiseNotResponding => exact ⟨_, _, _, _, _, _, _, _, _, rfl⟩
    | returnOne =>
      obtain ⟨a1, a2, a3, a4, a5, a6, a7, a8, a9, h⟩ := ih (s.withResult (.value 1))
      exact ⟨a1, a2, a3, a4, a5, a6, a7, a8, a9, by rw [settle, h]; rfl⟩

theorem settle_trace (q : Instr) (b : Option Level) (ops : List Op) (s : State) :
    (settle q b ops s).trace = s.trace := by
  obtain ⟨_, _, _, _, _, _, _, _, _, h⟩ := settle_frame q b ops s
  rw [h]

theorem settle_lines (q : Instr) (b : Option Level) (ops : List Op) (s : State) :
    (settle q b ops s).lines = s.lines := by
  obtain ⟨_, _, _, _, _, _, _, _, _, h⟩ := settle_frame q b ops s
  rw [h]

theorem settle_records (q : Instr) (b : Option Level) (ops : List Op) (s : State) :
    (settle q b ops s).records = s.records := by
  obtain ⟨_, _, _, _, _, _, _, _, _, h⟩ := settle_frame q b ops s
  rw [h]

/-- Settling leaves SEQ Idle, or Running the same request at an event. -/
theorem settle_position (q : Instr) (b : Option Level) (ops : List Op) (s : State) :
    (settle q b ops s).seq = .idle ∨
      ∃ p rest b', (settle q b ops s).seq = .running q (.bus p :: rest) b' := by
  induction ops generalizing s with
  | nil => exact .inl rfl
  | cons op rest ih =>
    cases op with
    | bus p => exact .inr ⟨p, rest, b, rfl⟩
    | geometry cols rows => exact ih _
    | shadows => exact ih _
    | clearPolls => exact ih _
    | pollDecide =>
      right
      simp only [settle, decidePoll]
      split
      · split
        · exact ⟨_, _, _, rfl⟩
        · split <;> exact ⟨_, _, _, rfl⟩
      · exact ⟨_, _, _, rfl⟩
    | raiseNotResponding => exact .inl rfl
    | returnOne => exact ih _

/-- A running block at an event whose primitive goes through: the event, then the statements up to the next. -/
theorem advance_bus {s t : State} {q : Instr} {p : Prim} {rest : List Op} {b b' : Option Level}
    (hs : s.seq = .running q (.bus p :: rest) b) (hp : perform p b s = .ok (b', t)) :
    advance s = settle q b' rest t := by
  simp [advance, hs, hp]

/-- What one step of the sequencer can do. -/
theorem advance_cases (s : State) :
    advance s = s ∨
    (∃ q p rest b b' t, s.seq = .running q (.bus p :: rest) b ∧ perform p b s = .ok (b', t) ∧
      advance s = settle q b' rest t) ∨
    (∃ q p rest b f, s.seq = .running q (.bus p :: rest) b ∧ perform p b s = .error f ∧
      advance s = endWithRecord (.fault f) s) ∨
    (∃ q ops b, s.seq = .running q ops b ∧ advance s = settle q b ops s) := by
  rcases hs : s.seq with _ | ⟨q, ops, b⟩
  · left
    simp [advance, hs]
  · right
    rcases ops with _ | ⟨op, rest⟩
    · exact .inr (.inr ⟨q, [], b, rfl, by simp [advance, hs]⟩)
    · cases op with
      | bus p =>
        rcases hp : perform p b s with f | ⟨b', t⟩
        · exact .inr (.inl ⟨q, p, rest, b, f, rfl, hp, by simp [advance, hs, hp]⟩)
        · exact .inl ⟨q, p, rest, b, b', t, rfl, hp, by simp [advance, hs, hp]⟩
      | geometry cols rows => exact .inr (.inr ⟨q, _, b, rfl, by simp [advance, hs]⟩)
      | shadows => exact .inr (.inr ⟨q, _, b, rfl, by simp [advance, hs]⟩)
      | clearPolls => exact .inr (.inr ⟨q, _, b, rfl, by simp [advance, hs]⟩)
      | pollDecide => exact .inr (.inr ⟨q, _, b, rfl, by simp [advance, hs]⟩)
      | raiseNotResponding => exact .inr (.inr ⟨q, _, b, rfl, by simp [advance, hs]⟩)
      | returnOne => exact .inr (.inr ⟨q, _, b, rfl, by simp [advance, hs]⟩)

/-! ## Taking a request -/

/-- What taking a request can do: nothing while another runs, a refusal recorded before CONSTRUCT, or the body. -/
theorem takeRequest_cases {i : Instr} {body : State → State} {s : State} :
    (∃ q rest b, s.seq = .running q rest b ∧ takeRequest i body s = .next s) ∨
    (s.seq = .idle ∧ s.constructed = false ∧
      takeRequest i body s = .next (endWithRecord (.refusal (.notConstructed i)) s)) ∨
    (s.seq = .idle ∧ s.constructed = true ∧ takeRequest i body s = .next (body s)) := by
  rcases hs : s.seq with _ | ⟨q, rest, b⟩
  · cases hc : s.constructed
    · exact .inr (.inl ⟨rfl, rfl, by simp [takeRequest, hs, hc]⟩)
    · exact .inr (.inr ⟨rfl, rfl, by simp [takeRequest, hs, hc]⟩)
  · exact .inl ⟨q, rest, b, rfl, by simp [takeRequest, hs]⟩

theorem takeRequest_of_ready {i : Instr} {body : State → State} {s : State}
    (hs : s.seq = .idle) (hc : s.constructed = true) : takeRequest i body s = .next (body s) := by
  simp [takeRequest, hs, hc]

/-- A procedure called by a running request continues that request. -/
theorem runProcedure_of_running {i q : Instr} {ops rest : List Op} {b : Option Level} {s : State}
    (hs : s.seq = .running q rest b) : runProcedure i ops s = .next (settle q b (ops ++ rest) s) := by
  simp [runProcedure, hs]

theorem runProcedure_of_ready {i : Instr} {ops : List Op} {s : State}
    (hs : s.seq = .idle) (hc : s.constructed = true) : runProcedure i ops s = .next (start i ops s) := by
  simp [runProcedure, takeRequest, hs, hc]

/-- A microprogram that begins with an event starts there, with RESULT empty and the rest of the state as it was. -/
theorem start_bus (q : Instr) (p : Prim) (rest : List Op) (s : State) :
    start q (.bus p :: rest) s = { s with result := .empty, seq := .running q (.bus p :: rest) none } := rfl

end Sys2Proof.Machine
end

