-- ==== Sys2Proof/Laws/Observer.lean ====
section
/-! SUPPORT. How the observer's readings of a trace compose, and that each primitive moves the lines as the observer sees its event. -/

namespace Sys2Proof.Machine

@[simp] theorem linesAfter_nil (c : PerLine LineState) : linesAfter c [] = c := rfl

@[simp] theorem linesAfter_cons (c : PerLine LineState) (ev : Event) (t : List Event) :
    linesAfter c (ev :: t) = linesAfter (applyEvent c ev) t := rfl

theorem linesAfter_append (c : PerLine LineState) (t u : List Event) :
    linesAfter c (t ++ u) = linesAfter (linesAfter c t) u := by
  simp [linesAfter]

theorem strobes_append (c : PerLine LineState) (t u : List Event) :
    strobes c (t ++ u) = strobes c t ++ strobes (linesAfter c t) u := by
  induction t generalizing c with
  | nil => rfl
  | cons ev t ih => simp [strobes, ih]

theorem samples_append (t u : List Event) : samples (t ++ u) = samples t ++ samples u := by
  induction t with
  | nil => rfl
  | cons ev t ih => cases ev <;> simp [samples, ih]

theorem minTime_append (t u : List Event) : minTime (t ++ u) = minTime t + minTime u := by
  induction t with
  | nil => simp [minTime]
  | cons ev t ih => cases ev <;> simp [minTime, ih, Nat.add_assoc]

/-- An appended event is seen at the platform as its own mapped event (30_encoding R94). -/
theorem platformTrace_append {s t : State} {evs : List Event} (hm : t.lineMap = s.lineMap) (ht : t.trace = s.trace ++ evs) :
    platformTrace t = platformTrace s ++ evs.map (platformEvent s.lineMap) := by
  simp [platformTrace, hm, ht]

/-- The events a state has appended account for the lines it has reached: one primitive at a time. -/
theorem perform_lines {p : Prim} {b b' : Option Level} {s t : State} (h : perform p b s = .ok (b', t)) :
    ∃ ev, t.trace = s.trace ++ [ev] ∧ t.lines = applyEvent s.lines ev := by
  cases p with
  | dir l d =>
    simp only [perform, Except.ok.injEq, Prod.mk.injEq] at h
    obtain ⟨-, rfl⟩ := h
    exact ⟨.dir l d, rfl, rfl⟩
  | set l v =>
    simp only [perform] at h
    by_cases hd : (PerLine.get s.lines l).dir = .output
    · rw [lineSet_of_output hd] at h
      cases h
      exact ⟨.set l v, rfl, rfl⟩
    · simp [lineSet, hd] at h
  | get l =>
    simp only [perform] at h
    by_cases hd : (PerLine.get s.lines l).dir = .input
    · rw [lineGet_of_input hd] at h
      cases h
      exact ⟨_, rfl, rfl⟩
    · simp [lineGet, hd] at h
  | wait us =>
    simp only [perform, Except.ok.injEq, Prod.mk.injEq] at h
    obtain ⟨-, rfl⟩ := h
    exact ⟨.wait us, rfl, rfl⟩

end Sys2Proof.Machine
end

