-- ==== Sys2Proof/Laws/Operands.lean ====
section
/-! SUPPORT. What the line-map check of CONSTRUCT finds. -/

namespace Sys2Proof.Machine

/-- An id found duplicated is one of the ids checked. -/
theorem mem_of_mem_duplicatedIds {x : LineId} {l : List LineId} (h : x ∈ duplicatedIds l) : x ∈ l := by
  induction l with
  | nil => simp [duplicatedIds] at h
  | cons y ys ih =>
    simp only [duplicatedIds] at h
    split at h
    · rcases List.mem_cons.mp h with rfl | h'
      · exact List.mem_cons_self
      · exact List.mem_cons_of_mem _ (ih h')
    · exact List.mem_cons_of_mem _ (ih h)

/-- The check finds nothing exactly where the ids are distinct (10_state R24). -/
theorem duplicatedIds_eq_nil_iff {l : List LineId} : duplicatedIds l = [] ↔ l.Nodup := by
  induction l with
  | nil => simp [duplicatedIds]
  | cons y ys ih =>
    rw [List.nodup_cons, ← ih]
    simp only [duplicatedIds]
    split
    · rename_i h
      simp [h.1]
    · rename_i h
      refine ⟨fun hd => ⟨fun hy => h ⟨hy, by simp [hd]⟩, hd⟩, fun hd => hd.2⟩

end Sys2Proof.Machine
end

