-- ==== Sys2Proof/Laws/PerInstr.lean ====
section
/-! SUPPORT. Statements made per instruction: the encoder gives a text exactly to the host requests. -/

namespace Sys2Proof.Laws.Encodable

/-- The encoder has a text for the instruction exactly when it is a host request (30_encoding R90, R104). -/
def Statement (i : Instr) : Prop := (encode i).isSome = i.wellFormed

theorem construct (ver : Byte) (rs rw e d0 d1 d2 d3 : LineId) : Statement (.construct ver rs rw e d0 d1 d2 d3) := rfl
theorem beginInit (cols rows : Byte) : Statement (.beginInit cols rows) := rfl
theorem command (v : Byte) : Statement (.command v) := rfl
theorem write (v : Byte) : Statement (.write v) := rfl
theorem clear : Statement .clear := rfl
theorem home : Statement .home := rfl
theorem setCursor (col row : Byte) : Statement (.setCursor col row) := rfl
theorem display : Statement .display := rfl
theorem noDisplay : Statement .noDisplay := rfl
theorem cursor : Statement .cursor := rfl
theorem noCursor : Statement .noCursor := rfl
theorem blink : Statement .blink := rfl
theorem noBlink : Statement .noBlink := rfl
theorem scrollDisplayLeft : Statement .scrollDisplayLeft := rfl
theorem scrollDisplayRight : Statement .scrollDisplayRight := rfl
theorem leftToRight : Statement .leftToRight := rfl
theorem rightToLeft : Statement .rightToLeft := rfl
theorem autoscroll : Statement .autoscroll := rfl
theorem noAutoscroll : Statement .noAutoscroll := rfl
theorem createChar (slot : Byte) (bitmap : Bitmap) : Statement (.createChar slot bitmap) := rfl
theorem write4bits (n : Nibble) : Statement (.write4bits n) := rfl
theorem pulseEnable : Statement .pulseEnable := rfl
theorem send (v : Byte) (mode : Level) : Statement (.send v mode) := rfl
theorem waitForReady : Statement .waitForReady := rfl
theorem powerOnSequence (cols rows : Byte) : Statement (.powerOnSequence cols rows) := rfl

end Sys2Proof.Laws.Encodable
end

