-- ==== Sys2Proof/Laws/Run.lean ====
section
/-! SUPPORT. Runs: steps of the machine, straight lines of primitives, and the three pieces every transfer is made of. -/

namespace Sys2Proof.Safety

open Sys2Proof.Machine

/-! ## Steps -/

theorem step_of_running {s : State} {q : Instr} {rest : List Op} {b : Option Level}
    (h : s.seq = .running q rest b) : step s = .next (advance s) := by
  simp [step, h]

theorem step_of_no_offer {s : State} (h : s.seq = .idle) (hh : s.host = []) : step s = .next s := by
  simp [step, h, fetch, hh]

/-- A step never answers a fault: the spec's faults are recorded and the block goes on. -/
theorem takeRequest_next (i : Instr) (body : State → State) (s : State) :
    ∃ t, takeRequest i body s = .next t := by
  rcases takeRequest_cases (i := i) (body := body) (s := s) with ⟨_, _, _, _, h⟩ | ⟨_, _, h⟩ | ⟨_, _, h⟩ <;>
    exact ⟨_, h⟩

@[simp] theorem run_zero (s : State) : run 0 s = .next s := rfl

theorem run_succ (n : Nat) (s : State) :
    run (n + 1) s = match step s with
      | .next t => run n t
      | .fault r => .fault r
      | .refused r => .refused r := rfl

theorem run_of_running {s : State} {q : Instr} {rest : List Op} {b : Option Level} (n : Nat)
    (h : s.seq = .running q rest b) : run (n + 1) s = run n (advance s) := by
  rw [run_succ, step_of_running h]

theorem run_of_next {s t : State} (n : Nat) (h : step s = .next t) : run (n + 1) s = run n t := by
  rw [run_succ, h]

theorem run_of_fault {s : State} {r : Fault} (n : Nat) (h : step s = .fault r) : run (n + 1) s = .fault r := by
  simp [run_succ, h]

theorem run_of_refused {s : State} {r : Refusal} (n : Nat) (h : step s = .refused r) :
    run (n + 1) s = .refused r := by
  simp [run_succ, h]

/-- A function that steps as the host interface's run steps is that run. -/
theorem core_run_unique (M : Host.Core)
    (f : Nat → M.State → Host.Outcome M.State M.Fault M.Refusal) (h0 : ∀ s, f 0 s = .next s)
    (h1 : ∀ n s t, M.step s = .next t → f (n + 1) s = f n t)
    (h2 : ∀ n s r, M.step s = .fault r → f (n + 1) s = .fault r)
    (h3 : ∀ n s r, M.step s = .refused r → f (n + 1) s = .refused r) (n : Nat) (s : M.State) :
    f n s = M.run n s := by
  induction n generalizing s with
  | zero => exact h0 s
  | succ n ih =>
    rw [Host.Core.run.eq_def]
    cases h : M.step s with
    | next t => rw [h1 n s t h, ih]; simp [h]
    | fault r => rw [h2 n s r h]; simp [h]
    | refused r => rw [h3 n s r h]; simp [h]

/-- `run` is the host interface's run of the machine. -/
theorem run_eq_core (n : Nat) (s : State) : run n s = Host.Core.run Sys2Proof.core n s :=
  core_run_unique Sys2Proof.core run run_zero (fun n _ _ h => run_of_next n h) (fun n _ _ h => run_of_fault n h)
    (fun n _ _ h => run_of_refused n h) n s

/-- Runs compose. -/
theorem run_add {m : Nat} {s t : State} (n : Nat) (h : run m s = .next t) : run (m + n) s = run n t := by
  induction m generalizing s with
  | zero =>
    cases h
    simp
  | succ m ih =>
    rw [Nat.succ_add, run_succ]
    rw [run_succ] at h
    cases hs : step s with
    | next u =>
      rw [hs] at h
      exact ih h
    | fault r => rw [hs] at h; cases h
    | refused r => rw [hs] at h; cases h

theorem run_trans {m n : Nat} {s t u : State} (h1 : run m s = .next t) (h2 : run n t = .next u) :
    run (m + n) s = .next u := by
  rw [run_add n h1, h2]

/-! ## Straight lines of primitives -/

/-- Primitives performed one after another, SEQ left out of account. -/
def performAll : List Prim → Option Level → State → Except Fault (Option Level × State)
  | [], b, s => .ok (b, s)
  | p :: ps, b, s =>
    match perform p b s with
    | .ok (b', t) => performAll ps b' t
    | .error f => .error f

/-- A primitive neither reads nor writes SEQ. -/
theorem perform_withSeq {p : Prim} {b b' : Option Level} {s t : State} (x : Seq)
    (h : perform p b s = .ok (b', t)) : perform p b (s.withSeq x) = .ok (b', t.withSeq x) := by
  cases p with
  | dir l d =>
    simp only [perform, Except.ok.injEq, Prod.mk.injEq] at h ⊢
    obtain ⟨rfl, rfl⟩ := h
    exact ⟨rfl, rfl⟩
  | set l v =>
    simp only [perform, lineSet] at h ⊢
    by_cases hd : (PerLine.get s.lines l).dir = .output
    · simp only [hd, if_true, Except.ok.injEq, Prod.mk.injEq] at h
      obtain ⟨rfl, rfl⟩ := h
      simp [hd]
      rfl
    · simp [hd] at h
  | get l =>
    simp only [perform, lineGet] at h ⊢
    by_cases hd : (PerLine.get s.lines l).dir = .input
    · simp only [hd, if_true, Except.ok.injEq, Prod.mk.injEq] at h
      obtain ⟨rfl, rfl⟩ := h
      simp [hd]
      rfl
    · simp [hd] at h
  | wait us =>
    simp only [perform, Except.ok.injEq, Prod.mk.injEq] at h ⊢
    obtain ⟨rfl, rfl⟩ := h
    exact ⟨rfl, rfl⟩

/-- Where the next entry is an event, settling only puts SEQ there. -/
@[simp] theorem settle_bus (q : Instr) (b : Option Level) (p : Prim) (rest : List Op) (s : State) :
    settle q b (.bus p :: rest) s = s.withSeq (.running q (.bus p :: rest) b) := rfl

/-- Settling overwrites SEQ whatever it was. -/
theorem settle_withSeq (q : Instr) (b : Option Level) (ops : List Op) (s : State) (x : Seq) :
    settle q b ops (s.withSeq x) = settle q b ops s := by
  induction ops generalizing s with
  | nil => rfl
  | cons op rest ih =>
    cases op with
    | bus p => rfl
    | geometry cols rows => exact ih (s.withGeometry cols rows)
    | shadows => exact ih s.withSequenceShadows
    | clearPolls =>
      have hc : clearPolls (s.withSeq x) = (clearPolls s).withSeq x := by
        simp only [clearPolls, State.withSeq_params]
        split <;> rfl
      simp only [settle, hc, ih]
    | pollDecide =>
      simp only [settle, decidePoll, State.withSeq_params, State.withSeq_polls]
      by_cases hb : b = some s.params.busyLevel
      · cases hl : s.params.pollLimit with
        | none => simp only [hb, if_true]; rfl
        | some k => by_cases hk : s.polls + 1 = k <;> simp only [hb, hk, if_true, if_false] <;> rfl
      · simp only [hb, if_false]
        rfl
    | raiseNotResponding => rfl
    | returnOne => exact ih (s.withResult (.value 1))

/-- Primitives neither read nor write SEQ. -/
theorem performAll_withSeq {ps : List Prim} {b b' : Option Level} {s t : State} (x : Seq)
    (h : performAll ps b s = .ok (b', t)) : performAll ps b (s.withSeq x) = .ok (b', t.withSeq x) := by
  induction ps generalizing b s with
  | nil =>
    cases h
    rfl
  | cons p ps ih =>
    simp only [performAll] at h ⊢
    cases hq : perform p b s with
    | error f => rw [hq] at h; cases h
    | ok r =>
      rw [hq] at h
      rw [perform_withSeq x hq]
      exact ih h

/-- A straight line of primitives that goes through takes one step for each, and leaves the request at what follows. -/
theorem run_performAll {ps : List Prim} {q : Instr} {rest : List Op} {b b' : Option Level} {s t : State}
    (hne : ps ≠ []) (hs : s.seq = .running q (ps.map Op.bus ++ rest) b) (hp : performAll ps b s = .ok (b', t)) :
    run ps.length s = .next (settle q b' rest t) := by
  induction ps generalizing s b t with
  | nil => exact absurd rfl hne
  | cons p ps ih =>
    simp only [performAll] at hp
    cases hq : perform p b s with
    | error f => rw [hq] at hp; cases hp
    | ok r =>
      obtain ⟨b1, t1⟩ := r
      rw [hq] at hp
      rw [List.length_cons, run_of_running _ hs, advance_bus hs hq]
      cases ps with
      | nil =>
        cases hp
        rfl
      | cons p' ps' =>
        have h3 := performAll_withSeq (.running q ((p' :: ps').map Op.bus ++ rest) b1) hp
        have h4 := ih (by simp) rfl h3
        rw [settle_withSeq] at h4
        exact h4

/-! ## The pieces of a transfer -/

/-- WRITE4BITS, wherever it stands in a microprogram, with E and the data lines outputs: 8 steps (41_transfer R150). -/
theorem run_write4bits {n : Nibble} {q : Instr} {rest : List Op} {b : Option Level} {s : State}
    (hs : s.seq = .running q (write4bitsOps n ++ rest) b)
    (he : s.lines.e.dir = .output) (h0 : s.lines.data0.dir = .output) (h1 : s.lines.data1.dir = .output)
    (h2 : s.lines.data2.dir = .output) (h3 : s.lines.data3.dir = .output) :
    run 8 s = .next (settle q b rest
      { s with
        lines := { s.lines with
          e := outputAt .low, data0 := outputAt (nibbleLevel n 0), data1 := outputAt (nibbleLevel n 1),
          data2 := outputAt (nibbleLevel n 2), data3 := outputAt (nibbleLevel n 3) }
        trace := s.trace ++ nibTrace n }) := by
  refine run_performAll
    (ps := [.set .data0 (nibbleLevel n 0), .set .data1 (nibbleLevel n 1), .set .data2 (nibbleLevel n 2),
      .set .data3 (nibbleLevel n 3), .wait Config.tSetup, .set .e .high, .wait Config.tPulse, .set .e .low])
    (by simp) hs ?_
  simp [performAll, perform, lineSet, waitUs, PerLine.get, PerLine.put, setLines, State.withLines,
    State.appendEvent, he, h0, h1, h2, h3, nibTrace, outputAt, Config.tSetup, Config.tPulse]

/-- One poll iteration with the lines polling: 8 steps, one sample, and then the decision (42_handshake R171). -/
theorem run_pollIteration {q : Instr} {rest : List Op} {b : Option Level} {s : State}
    (hs : s.seq = .running q (pollIterationOps ++ rest) b) (hl : linesPolling s.lines = true) :
    run 8 s = .next (settle q (some (deviceAnswer s.device (s.trace ++ [.set .e .low, .set .e .high, .wait 10]) .data3))
      rest
      { s with
        trace := s.trace ++ iterTrace (deviceAnswer s.device (s.trace ++ [.set .e .low, .set .e .high, .wait 10]) .data3)
        device := deviceAfter s.device }) := by
  simp only [linesPolling, Bool.and_eq_true, beq_iff_eq] at hl
  obtain ⟨⟨⟨⟨⟨⟨⟨⟨⟨-, -⟩, he⟩, -⟩, -⟩, -⟩, h3⟩, -⟩, -⟩, hev⟩ := hl
  refine run_performAll
    (ps := [.set .e .low, .set .e .high, .wait Config.tStatus, .get .data3, .set .e .low, .set .e .high,
      .wait Config.tPulse, .set .e .low]) (by simp) hs ?_
  have hsame : ({ dir := .output, lvl := .low } : LineState) = s.lines.e := by
    cases hx : s.lines.e
    simp_all
  simp [performAll, perform, lineSet, lineGet, waitUs, PerLine.get, PerLine.put, setLines, State.withLines,
    State.appendEvent, State.withDevice, he, h3, iterTrace, Config.tStatus, Config.tPulse, driveLevel, hsame]

theorem pollAnswers_succ (busy : Level) (j : Nat) : pollAnswers busy (j + 1) = busy :: pollAnswers busy j := rfl

/-- POLLS after `j` more busy samples: counted only under a bound (10_state R36). -/
def pollsPlus (s : State) (j : Nat) : Nat :=
  match s.params.pollLimit with
  | none => s.polls
  | some _ => s.polls + j

/-- An iteration that reads busy below the bound: 8 steps, and the loop stands at its first event again. -/
theorem run_busyIteration {q : Instr} {rest : List Op} {more : List Level} {b : Option Level} {s : State}
    (hs : s.seq = .running q (pollIterationOps ++ .pollDecide :: rest) b) (hl : linesPolling s.lines = true)
    (hd : s.device = .script (s.params.busyLevel :: more))
    (hb : ∀ k, s.params.pollLimit = some k → s.polls + 1 ≠ k) :
    run 8 s = .next
      { s with
        seq := .running q (pollIterationOps ++ .pollDecide :: rest) none
        polls := pollsPlus s 1
        trace := s.trace ++ iterTrace s.params.busyLevel
        device := .script more } := by
  rw [run_pollIteration hs hl, hd]
  cases hlim : s.params.pollLimit with
  | none => simp [settle, decidePoll, deviceAnswer, deviceAfter, State.withSeq, pollsPlus, hlim]
  | some k =>
    have hk := hb k hlim
    simp [settle, decidePoll, deviceAnswer, deviceAfter, State.withSeq, State.withPolls, pollsPlus, hlim, hk]

/-- An iteration that reads ready: 8 steps, and the handshake stands at its exit (42_handshake R173). -/
theorem run_readyIteration {q : Instr} {rest : List Op} {more : List Level} {b : Option Level} {s : State} {v : Level}
    (hs : s.seq = .running q (pollIterationOps ++ .pollDecide :: rest) b) (hl : linesPolling s.lines = true)
    (hd : s.device = .script (v :: more)) (hv : v ≠ s.params.busyLevel) :
    run 8 s = .next
      { s with
        seq := .running q (handshakeExitOps ++ rest) none
        trace := s.trace ++ iterTrace v
        device := .script more } := by
  rw [run_pollIteration hs hl, hd]
  simp [settle, decidePoll, deviceAnswer, deviceAfter, State.withSeq, hv]

/-- The poll loop of a device that answers busy `j` times and then ready, within the bound: `8(j + 1)` steps, and then the exit
(42_handshake R170). -/
theorem run_pollLoop {q : Instr} {rest : List Op} {more : List Level} (j : Nat) {b : Option Level} {s : State}
    (hs : s.seq = .running q (pollIterationOps ++ .pollDecide :: rest) b) (hl : linesPolling s.lines = true)
    (hd : s.device = .script (pollAnswers s.params.busyLevel j ++ more))
    (hb : ∀ k, s.params.pollLimit = some k → s.polls + j < k) :
    run (8 * (j + 1)) s = .next
      { s with
        seq := .running q (handshakeExitOps ++ rest) none
        polls := pollsPlus s j
        trace := s.trace ++ (pollAnswers s.params.busyLevel j).flatMap iterTrace
        device := .script more } := by
  induction j generalizing s b with
  | zero =>
    have hne : (match s.params.busyLevel with | .low => Level.high | .high => Level.low) ≠ s.params.busyLevel := by
      cases s.params.busyLevel <;> decide
    rw [show 8 * (0 + 1) = 8 from rfl, run_readyIteration hs hl hd hne]
    cases hlim : s.params.pollLimit <;> simp [pollAnswers, pollsPlus, hlim]
  | succ j ih =>
    rw [show 8 * (j + 1 + 1) = 8 + 8 * (j + 1) by omega]
    have h1 := run_busyIteration hs hl (more := pollAnswers s.params.busyLevel j ++ more) hd
      (by intro k hk; have := hb k hk; omega)
    have h2 := ih (b := none)
      (s := { s with
        seq := .running q (pollIterationOps ++ .pollDecide :: rest) none
        polls := pollsPlus s 1
        trace := s.trace ++ iterTrace s.params.busyLevel
        device := .script (pollAnswers s.params.busyLevel j ++ more) }) rfl hl rfl
      (by
        intro k hk
        have := hb k hk
        simp only [pollsPlus, show s.params.pollLimit = some k from hk]
        omega)
    rw [run_add _ h1, h2]
    cases hlim : s.params.pollLimit <;>
      simp [pollAnswers_succ, pollsPlus, hlim, List.append_assoc, Nat.add_assoc, Nat.add_comm 1 j]

end Sys2Proof.Safety
end

