-- ==== Sys2Proof/Tests/Slice0.lean ====
section
/-! SUPPORT. Small tests, each against a vector of spec/95 or a rule, and a witness for the hypotheses of every obligation that has some. -/

namespace Sys2Proof.Tests

open Sys2Proof.Machine
open Sys2Proof.Safety

/-! ## Well-formedness -/

/-- The one check: an internal procedure is no host request (30_encoding R90). -/
theorem test_internal_is_ill_formed : (Instr.send 0x41 .high).wellFormed = false := by decide
theorem test_nibble_is_ill_formed : (Instr.write4bits 0x3).wellFormed = false := by decide
theorem test_write_is_well_formed : (Instr.write 0x41).wellFormed = true := by decide

/-! ## Decoding, from words written out by hand -/

/-- R104's examples. -/
theorem test_decode_begin : decode "BEGIN 16, 2".toList = .ok (.beginInit 16 2) := by rfl
theorem test_decode_set_cursor : decode "SET_CURSOR 5, 1".toList = .ok (.setCursor 5 1) := by rfl
theorem test_decode_write : decode "WRITE 0x48".toList = .ok (.write 0x48) := by rfl
theorem test_decode_create_char :
    decode "CREATE_CHAR 3, [0x01, 0x02, 0x04, 0x08, 0x10, 0x20, 0x40, 0x80]".toList
      = .ok (.createChar 3 ⟨0x01, 0x02, 0x04, 0x08, 0x10, 0x20, 0x40, 0x80⟩) := by rfl
/-- 95 P1. -/
theorem test_decode_construct :
    decode "CONSTRUCT 1, p0, p1, p2, p3, p4, p5, p6".toList = .ok (.construct 1 0 1 2 3 4 5 6) := by rfl
/-- R104's own example. -/
theorem test_decode_construct_names :
    decode "CONSTRUCT 2, rs, rw, e, d0, d1, d2, d3".toList = .ok (.construct 2 0 1 2 3 4 5 6) := by rfl
theorem test_decode_no_autoscroll : decode "NO_AUTOSCROLL".toList = .ok .noAutoscroll := by rfl
/-- 93 U7: a bitmap of other than eight bytes cannot be written as a request. -/
theorem test_decode_short_bitmap : decode "CREATE_CHAR 3, [1, 2]".toList = .error (.bitmapLength 2) := by rfl
/-- 92 D16: operands are 8 bits. -/
theorem test_decode_wide_operand : decode "WRITE 256".toList = .error (.operandTooWide 256) := by rfl
/-- 00_scope R7: line operands too; 255 is the last that fits. -/
theorem test_decode_wide_line_id : decode "CONSTRUCT 1, p255, p256, p2, p3, p4, p5, p6".toList = .error (.operandTooWide 256) := by rfl
theorem test_decode_last_line_id :
    decode "CONSTRUCT 1, p255, p1, p2, p3, p4, p5, p6".toList = .ok (.construct 1 255 1 2 3 4 5 6) := by rfl
/-- R90: internal procedures are no requests. -/
theorem test_decode_internal : decode "PULSE_ENABLE".toList = .error (.unknownMnemonic "PULSE_ENABLE".toList) := by rfl
theorem test_encode_set_cursor : encode (.setCursor 5 1) = some "SET_CURSOR 0x05, 0x01".toList := by rfl
theorem test_encode_line_id : encodeLineId 120 = "p120".toList := by rfl

/-- The bus words of the opcode table, bit by bit: RS, then the byte. -/
theorem test_word_clear : decodeTableWord 16 0b000000001 = some .clear := by decide
theorem test_word_home : decodeTableWord 16 0b000000010 = some .home := by decide
theorem test_word_set_cursor : decodeTableWord 16 0b010000101 = some (.setCursor 5 0) := by decide
theorem test_word_display : decodeTableWord 16 0b000001100 = some .display := by decide
theorem test_word_no_display : decodeTableWord 16 0b000001000 = some .noDisplay := by decide
theorem test_word_cursor : decodeTableWord 16 0b000001010 = some .cursor := by decide
theorem test_word_blink : decodeTableWord 16 0b000001001 = some .blink := by decide
theorem test_word_scroll_left : decodeTableWord 16 0b000011000 = some .scrollDisplayLeft := by decide
theorem test_word_scroll_right : decodeTableWord 16 0b000011100 = some .scrollDisplayRight := by decide
theorem test_word_left_to_right : decodeTableWord 16 0b000000110 = some .leftToRight := by decide
theorem test_word_right_to_left : decodeTableWord 16 0b000000100 = some .rightToLeft := by decide
theorem test_word_autoscroll : decodeTableWord 16 0b000000101 = some .autoscroll := by decide
theorem test_word_command : decodeTableWord 16 0b000110011 = some (.command 0x33) := by decide
theorem test_word_write : decodeTableWord 16 0b101001000 = some (.write 0x48) := by decide
/-- Slot 3 with the eight data words of W6 after it, 16 bits each. -/
theorem test_word_create_char :
    decodeTableWord 144 0x018001400120011001080104010201010058
      = some (.createChar 3 ⟨0x01, 0x02, 0x04, 0x08, 0x10, 0x20, 0x40, 0x80⟩) := by decide
/-- The rows that never come first are in the word's set (30_encoding R106). -/
theorem test_word_shared : decodeBusWord 0b000001000 [] = [.noDisplay, .noCursor, .noBlink, .command 0x08] := by decide
theorem test_word_shared_entry : decodeBusWord 0b000000100 [] = [.rightToLeft, .noAutoscroll, .command 0x04] := by decide
/-- Bit 9 is no bit of a bus word (30_encoding R91). -/
theorem test_word_too_wide : decodeTableWord 16 0b1000000001 = none := by decide

/-! ## Operand forms (95 W3, W4, V-C1 to V-C3, V-C5, V-C6, W2) -/

theorem test_set_cursor_bytes :
    ddramCmd 2 5 1 = some 0xC5 ∧ ddramCmd 2 3 2 = some 0x83 ∧ ddramCmd 2 0xFF 1 = some 0xBF ∧
      ddramCmd 4 19 3 = some 0xE7 ∧ ddramCmd 4 0xC0 3 = some 0x94 ∧ ddramCmd 0 9 3 = some 0x89 ∧
      ddramCmd 6 2 4 = none ∧ ddramCmd 6 2 6 = some 0x82 := by decide
theorem test_slot_mask : cgramCmd 3 = 0x58 ∧ cgramCmd 8 = 0x40 ∧ cgramCmd 15 = 0x78 ∧ cgramCmd 0xFF = 0x78 := by decide
theorem test_variant_codes :
    decodeVariant 1 = .v1 ∧ decodeVariant 2 = .v2 ∧ decodeVariant 0 = .v2 ∧ decodeVariant 255 = .v2 := by decide
theorem test_display_bytes :
    busWords 0 0b111 0 .noDisplay = [0x00B] ∧ busWords 0 0b100 0 .cursor = [0x00E] ∧
      busWords 0 0b111 0 .noBlink = [0x00E] ∧ busWords 0 0b000 0 .cursor = [0x00A] ∧
      busWords 0 0b100 0 .noCursor = [0x00C] := by decide
theorem test_entry_bytes :
    busWords 0 0 0b00 .autoscroll = [0x005] ∧ busWords 0 0 0b11 .rightToLeft = [0x005] ∧
      busWords 0 0 0b10 .noAutoscroll = [0x006] := by decide
/-- 95 P1: row 1, column 5 is DDRAM 0x45; 20_memory R75: pixel row 2 of slot 3. -/
theorem test_device_maps : ddramAddress 1 5 = some 0x45 ∧ cgramAddress 3 2 = 26 := by decide
theorem test_duplicated_ids : duplicatedIds [0, 1, 0, 3, 4, 5, 4] = [0, 4] := by decide

/-! ## States -/

/-- A block built and idle, its geometry 16 by 2, its device about to answer ready once. -/
def demo : State := { builtState State.reset with seq := .idle, device := .script [.low] }

/-- `demo` running `q` at `ops`. -/
def demoRunning (q : Instr) (ops : List Op) : State := { demo with seq := .running q ops none }

/-- The lines of `demo` while the handshake polls. -/
def pollingLines : PerLine LineState :=
  { demo.lines with rw := outputAt .high, data3 := { dir := .input, lvl := .unknown } }

/-! ## Single steps and meanings -/

/-- V-F1: RS and E on the same platform line. -/
theorem test_duplicate_line :
    exec (.construct 1 0 1 0 3 4 5 6) State.reset
      = .next { State.reset with records := [.refusal (.duplicateLine [0])] } := by rfl
/-- V-F2. -/
theorem test_construct_twice :
    exec (.construct 1 0 1 2 3 4 5 6) demo = .next { demo with records := [.refusal .constructTwice] } := by rfl
/-- V-F3. -/
theorem test_not_constructed :
    exec (.write 0x41) State.reset
      = .next { State.reset with records := [.refusal (.notConstructed (.write 0x41))] } := by rfl
/-- V-C3: NUMLINES 6, row 5. -/
theorem test_row_out_of_table :
    exec (.setCursor 2 5) { demo with numLines := 6 }
      = .next { demo with numLines := 6, records := [.fault (.rowOffsetOutOfTable 5)] } := by rfl
/-- V-F5: NO_DISPLAY has changed the shadow when its transfer starts. -/
theorem test_no_display_shadow_first :
    exec .noDisplay demo
      = .next { demo with dispctl := 0b000, seq := .running .noDisplay (sendOps 0x08 .low) none } := by rfl
/-- T5: COMMAND 0x0F leaves DISPCTL. -/
theorem test_command_keeps_shadow :
    exec (.command 0x0F) demo = .next { demo with seq := .running (.command 0x0F) (sendOps 0x0F .low) none } := by rfl
/-- The first event of a WRITE is Set(RS, High) (V-T4). -/
theorem test_write_first_event : (advance (start (.write 0x48) (sendOps 0x48 .high) demo)).trace = [.set .rs .high] := by decide
/-- WRITE's last event brings RESULT to 1. -/
theorem test_write_returns_one :
    (advance (demoRunning (.write 0x48) [opSet .rw .low, .returnOne])).result = .value 1 ∧
      (advance (demoRunning (.write 0x48) [opSet .rw .low, .returnOne])).seq = .idle := by decide
/-- BEGIN writes its geometry before its first event (40_init_sequencer R132 step 0). -/
theorem test_begin_geometry :
    ∃ t, exec (.beginInit 20 4) demo = .next t ∧ t.numCols = 20 ∧ t.numLines = 4 ∧ t.curLine = 0 ∧ t.trace = [] :=
  ⟨_, rfl, rfl, rfl, rfl, rfl⟩
/-- The lone nibbles: the extra 0x8 on V2 only (W1). -/
theorem test_lone_nibbles : loneNibbles .v1 = [3, 2, 2, 8] ∧ loneNibbles .v2 = [3, 8, 2, 2, 8] := by decide
/-- A line turned to output drives Unknown; one already an output keeps its level (20_memory R61). -/
theorem test_line_dir_unknown :
    (lineDir .data3 .output { demo with lines := pollingLines }).lines.data3 = { dir := .output, lvl := .unknown } ∧
      (lineDir .data2 .output demo).lines.data2 = { dir := .output, lvl := .high } := by decide
/-- LineSet on a line that is not an output (20_memory R62). -/
theorem test_line_not_output :
    step { State.reset with seq := .running .clear [opSet .rs .low] none }
      = .next { State.reset with records := [.fault (.lineNotOutput .rs)] } := by rfl
/-- LineGet on a line that is not an input (R63). -/
theorem test_line_not_input :
    step (demoRunning .clear [opGet .data3, opWait 1])
      = .next { demo with records := [.fault (.lineNotInput .data3)] } := by rfl
/-- A sample takes the next answer of the script (R63). -/
theorem test_sample :
    step { demo with lines := pollingLines, seq := .running .clear [opGet .data3, opWait 1] none }
      = .next { demo with
          lines := pollingLines, trace := [.get .data3 .low], device := .script [],
          seq := .running .clear [opWait 1] (some .low) } := by rfl
/-- V-H5: with POLL_LIMIT = some 1 one busy sample reaches the bound, and the exit events come before the error. -/
theorem test_bound_reached :
    (settle .clear (some .high) [.pollDecide, opWait 7]
        { demo with params := { Config.referenceParams with pollLimit := some 1 } }).seq
      = .running .clear [opDir .data3 .output, opSet .rw .low, .raiseNotResponding] none := by decide
/-- V-H7: with BUSY_LEVEL = Low the answer High ends the loop. -/
theorem test_polarity :
    (settle .clear (some .high) [.pollDecide, opWait 7]
        { demo with params := { Config.referenceParams with busyLevel := .low } }).seq
      = .running .clear [opDir .data3 .output, opSet .rw .low, opWait 7] none := by decide
/-- CREATE_CHAR sends the address and then eight data bytes: 9 transfers (V-C9). -/
theorem test_create_char_words :
    busWords 2 0 0 (.createChar 0xFF ⟨0xFF, 0, 0, 0, 0, 0, 0, 0x1F⟩)
      = [0x078, 0x1FF, 0x100, 0x100, 0x100, 0x100, 0x100, 0x100, 0x11F] := by decide
/-- A table word placed on the machine before CONSTRUCT is run by the very next step. -/
theorem test_fetch_word_runs :
    step (State.reset.withFetchWord 16 0x001) = exec .clear (builtState State.reset) := by rfl
/-- The internal procedures run in place in a running request (00_scope R12). -/
theorem test_pulse_in_place :
    exec .pulseEnable (demoRunning .clear [opWait 7])
      = .next (demoRunning .clear [opSet .e .high, opWait 50, opSet .e .low, opWait 7]) := by rfl

/-! ## The observer (95 P1, V-T4, V-E1, V-E2) -/

theorem test_observed_word : observedBusWords demo.lines (sendTrace 0x48 .high [.low]) = [0x148] := by decide
/-- "Hi" is at DDRAM 0x45 and 0x46. -/
theorem test_device_writes :
    deviceWrites none [0x0C5, 0x148, 0x169] = [(.ddram, 0x45, 0x48), (.ddram, 0x46, 0x69)] := by decide
/-- V-E1: a longer wait conforms. -/
theorem test_longer_wait_conforms :
    Conforms demo.lines (nibTrace 0x5)
      [.set .data0 .high, .set .data1 .low, .set .data2 .high, .set .data3 .low, .wait 80, .set .e .high, .wait 50,
       .set .e .low] :=
  .raiseWait [.set .data0 .high, .set .data1 .low, .set .data2 .high, .set .data3 .low]
    [.set .e .high, .wait 50, .set .e .low] 50 80 (by decide)
/-- V-E2: the handshake without the first Set(E, Low) of its iteration conforms. -/
theorem test_redundant_low_conforms :
    Conforms demo.lines (handshakeTrace [.low])
      ([.dir .data3 .input, .set .rs .low, .set .rw .high] ++ (iterTrace .low).tail
        ++ [.dir .data3 .output, .set .rw .low]) :=
  .deleteRedundant [.dir .data3 .input, .set .rs .low, .set .rw .high]
    ((iterTrace .low).tail ++ [.dir .data3 .output, .set .rw .low]) (.set .e .low) (by decide)
/-- V-E1: data lines set in another order conform. -/
theorem test_data_order_conforms :
    Conforms demo.lines [.set .data0 .high, .set .data1 .low] [.set .data1 .low, .set .data0 .high] :=
  .reorderData [] [.set .data0 .high, .set .data1 .low] [.set .data1 .low, .set .data0 .high] [] (by decide) (by decide)
    (by decide) (by decide) (by decide)
/-- R82 item 2 between the events on E of power-on step 1 and of the first lone nibble: step 2's Set(DATA1, Low) and the nibble's
Set(DATA0, High) exchanged, a Dir and other Sets standing between them. -/
theorem test_far_data_order_conforms :
    Conforms unconfiguredLines
      (configureTrace.take 11 ++ [.dir .data2 .output, .set .data2 .low, .dir .data3 .output, .set .data3 .low,
        .set .data0 .high, .set .data1 .high])
      (configureTrace.take 10 ++ [.set .data0 .high, .dir .data2 .output, .set .data2 .low, .dir .data3 .output,
        .set .data3 .low, .set .data1 .low, .set .data1 .high]) :=
  .reorderData (configureTrace.take 10)
    [.set .data1 .low, .dir .data2 .output, .set .data2 .low, .dir .data3 .output, .set .data3 .low, .set .data0 .high,
      .set .data1 .high]
    [.set .data0 .high, .dir .data2 .output, .set .data2 .low, .dir .data3 .output, .set .data3 .low, .set .data1 .low,
      .set .data1 .high]
    [] (by decide) (by decide) (by decide) (by decide) (by decide)
/-- R94: a role is mapped to the line CONSTRUCT was given for it; BUSY is DATA3's (10_state R25). -/
theorem test_platform_lines :
    platformTrace { demo with
        lineMap := { rs := 9, rw := 8, e := 7, data0 := 6, data1 := 5, data2 := 4, data3 := 3 }
        trace := [.set .rs .high, .get .data3 .low, .wait 50] }
      = [.set 9 .high, .get 3 .low, .wait 50] := by decide

/-! ## Witnesses: for each obligation with hypotheses, a state and operands that meet all of them -/

theorem demo_ready : Ready demo := ⟨rfl, rfl, by decide⟩

theorem demo_bound (j : Nat) : WithinBound demo j := by
  intro k hk
  exact absurd (show (none : Option Nat) = some k from hk) (by simp)

/-- A bounded `demo` whose device answers busy twice. -/
def demoBounded : State :=
  { demo with params := { Config.referenceParams with pollLimit := some 2 }, device := .script [.high, .high] }

theorem demoBounded_ready : Ready demoBounded := ⟨rfl, rfl, by decide⟩

theorem test_witness_StepRunsDecodedRequest :
    { demo with host := [.request .clear] }.seq = .idle ∧
      { demo with host := [.request .clear] }.host = .request .clear :: [] ∧
      decodeOffer (.request .clear) = .ok .clear ∧ Instr.clear.wellFormed = true ∧
      (demoRunning .clear [opWait 50]).seq = .running .clear [opWait 50] none :=
  ⟨rfl, rfl, rfl, rfl, rfl⟩

theorem test_witness_StepRunsTableWord :
    decodeTableWord 16 0x080 = some (.setCursor 0 0) ∧ demo.constructed = true := by decide

theorem test_witness_RunningStepPerformsOneEvent :
    inv (demoRunning (.beginInit 1 1) (sendOps 0x08 .low)) = true ∧
      (demoRunning (.beginInit 1 1) (sendOps 0x08 .low)).seq
        = .running (.beginInit 1 1) (.bus (.set .rs .low) :: (sendOps 0x08 .low).tail) none := by decide

theorem test_witness_steps_of_a_built_block :
    demo.constructed = true ∧ inv demo = true ∧ step demo = .next demo := ⟨rfl, by decide, rfl⟩

theorem test_witness_RequestWaitsWhileRunning :
    (demoRunning .clear [opWait 50]).seq = .running .clear [opWait 50] none ∧ (Instr.write 1).wellFormed = true :=
  ⟨rfl, rfl⟩

theorem test_witness_NonRequestsAreRefused :
    demo.seq = .idle ∧ { demo with host := [.request .pulseEnable] }.host = .request .pulseEnable :: [] ∧
      decodeOffer (.request .pulseEnable) = .ok .pulseEnable ∧ Instr.pulseEnable.wellFormed = false ∧
      decodeOffer (.text "X".toList) = .error (.unknownMnemonic "X".toList) :=
  ⟨rfl, rfl, rfl, rfl, rfl⟩

theorem test_witness_TakingChangesOnlyItsOwnRegisters :
    exec .display demo = .next { demo with seq := .running .display (sendOps 0x0C .low) none } := by rfl

theorem test_witness_RefusedBeforeConstruct :
    State.reset.seq = .idle ∧ State.reset.constructed = false ∧ Instr.home.wellFormed = true ∧
      ∀ ver rs rw e d0 d1 d2 d3, Instr.home ≠ .construct ver rs rw e d0 d1 d2 d3 :=
  ⟨rfl, rfl, rfl, by intros; simp⟩

theorem test_witness_SecondConstructIsRefused : demo.seq = .idle ∧ demo.constructed = true := ⟨rfl, rfl⟩

theorem test_witness_DuplicateLineIsRefused :
    State.reset.seq = .idle ∧ State.reset.constructed = false ∧ ¬ [0, 1, 0, 3, 4, 5, 6].Nodup := by decide

theorem test_witness_ConstructIsAccepted :
    State.reset.seq = .idle ∧ State.reset.constructed = false ∧ [0, 1, 2, 3, 4, 5, 6].Nodup := by decide

/-- The state before CONSTRUCT with a device ready at every first sample. -/
def freshReady : State := { State.reset with device := .script [.low, .low, .low, .low, .low] }

theorem test_witness_ConstructCompletes :
    freshReady.seq = .idle ∧ freshReady.constructed = false ∧ [0, 1, 2, 3, 4, 5, 6].Nodup ∧
      freshReady.device = .script (fiveAnswers freshReady.params.busyLevel 0 0 0 0 0 ++ []) ∧ WithinBound freshReady 0 :=
  ⟨rfl, rfl, by decide, by decide, fun k hk => absurd (show (none : Option Nat) = some k from hk) (by simp)⟩

theorem test_witness_BeginCompletes :
    { demo with device := freshReady.device }.seq = .idle ∧ demo.constructed = true ∧
      freshReady.device = .script (fiveAnswers demo.params.busyLevel 0 0 0 0 0 ++ []) ∧ WithinBound demo 0 :=
  ⟨rfl, rfl, by decide, demo_bound 0⟩

theorem test_witness_SequenceSetsTheShadows :
    (demoRunning (.beginInit 16 2) [opWait 5000, .shadows]).seq
      = .running (.beginInit 16 2) [opWait 5000, .shadows] none := rfl

/-- LineSet: an output, and a line that is none; LineGet: an input, and a line that is none; Wait. Each with an event, a statement or nothing
after it. -/
theorem test_witness_LineSetRule :
    (demoRunning .clear [opSet .rs .low, opWait 1]).seq = .running .clear (opSet .rs .low :: .bus (.wait 1) :: []) none ∧
      (PerLine.get demo.lines .rs).dir = .output ∧ (PerLine.get State.reset.lines .rs).dir ≠ .output ∧
      (demoRunning (.write 1) [opSet .rw .low, .returnOne]).seq = .running (.write 1) (opSet .rw .low :: [.returnOne]) none ∧
      { State.reset with seq := .running .clear [opSet .rs .low] none }.seq
        = .running .clear (opSet .rs .low :: []) none := by decide

theorem test_witness_LineGetRule :
    { demo with lines := pollingLines, seq := .running .clear [opGet .data3, opWait 1] none }.seq
        = .running .clear (opGet .data3 :: [opWait 1]) none ∧
      (demoRunning .clear [opGet .data3, .pollDecide]).seq = .running .clear (opGet .data3 :: [.pollDecide]) none ∧
      (PerLine.get pollingLines .data3).dir = .input ∧ (PerLine.get demo.lines .data3).dir ≠ .input := by decide

theorem test_witness_LineDirRule :
    (PerLine.get pollingLines .data3).dir ≠ .output ∧ (PerLine.get demo.lines .data2).dir = .output ∧
      Line.data2 ≠ Line.data3 := by decide

theorem test_witness_WaitRule :
    (demoRunning .clear [opWait 50, opWait 1]).seq = .running .clear (opWait 50 :: [opWait 1]) none ∧
      (demoRunning (.beginInit 1 1) [opWait 50, .shadows]).seq = .running (.beginInit 1 1) (opWait 50 :: [.shadows]) none ∧
      demo.params.pollLimit = none ∧ demoBounded.params.pollLimit = some 2 ∧ some Level.low ≠ some demo.params.busyLevel ∧
      some Level.high = some demo.params.busyLevel ∧ some Level.high = some demoBounded.params.busyLevel ∧
      { demoBounded with polls := 1 }.polls + 1 = 2 ∧ demoBounded.polls + 1 ≠ 2 := by decide

/-- A step with E High: the strobe's wait. -/
def strobing : State :=
  { demo with
    lines := { demo.lines with e := outputAt .high }
    seq := .running .clear ([opWait 50, opSet .e .low] ++ waitForReadyOps) none }

theorem test_witness_LinesAreStableWhileEIsHigh :
    inv strobing = true ∧ strobing.constructed = true ∧ strobing.lines.e.lvl = .high ∧
      step strobing = .next (advance strobing) ∧ Line.rs ≠ Line.e := ⟨by decide, rfl, rfl, rfl, by decide⟩

theorem test_witness_OnlyOneIsReturned :
    step (demoRunning (.write 0x48) [opSet .rw .low, .returnOne])
        = .next (advance (demoRunning (.write 0x48) [opSet .rw .low, .returnOne])) ∧
      (advance (demoRunning (.write 0x48) [opSet .rw .low, .returnOne])).result = .value 1 := ⟨rfl, by decide⟩

/-- The hypotheses of every `SendsByte` statement: a ready block, a device that answers ready, within the bound. -/
theorem test_witness_SendsByte :
    Ready demo ∧ demo.device = .script (pollAnswers demo.params.busyLevel 0 ++ []) ∧ WithinBound demo 0 :=
  ⟨demo_ready, by decide, demo_bound 0⟩

/-- The same under a bound, the device busy once. -/
theorem test_witness_SendsByte_bounded :
    Ready { demoBounded with device := .script [.high, .low] } ∧
      Device.script [.high, .low] = .script (pollAnswers demoBounded.params.busyLevel 1 ++ []) ∧
      WithinBound demoBounded 1 :=
  ⟨⟨rfl, rfl, by decide⟩, by decide, by intro k hk; cases hk; decide⟩

/-- The lines of `demo` with RS High, as the handshake of a data byte finds them. -/
def dataLines : PerLine LineState := { demo.lines with rs := outputAt .high }

/-- With RS at either level; called before an event, before a statement and at the end. -/
theorem test_witness_SendRunsInPlace :
    (demoRunning .clear [opWait 7]).seq = .running .clear [opWait 7] none ∧
      (demoRunning (.write 1) [.returnOne]).seq = .running (.write 1) [.returnOne] none ∧
      (demoRunning (.command 1) []).seq = .running (.command 1) [] none ∧
      linesDriven demo.lines = true ∧ linesDriven dataLines = true ∧
      demo.device = .script (pollAnswers demo.params.busyLevel 0 ++ []) ∧ WithinBound demo 0 :=
  ⟨rfl, rfl, rfl, by decide, by decide, by decide, demo_bound 0⟩

theorem test_witness_HandshakeCompletes :
    { demo with lines := dataLines }.seq = .idle ∧ { demo with lines := dataLines }.constructed = true ∧
      linesDriven { demo with lines := dataLines }.lines = true ∧ dataLines.rs.lvl = .high ∧
      demo.device = .script (pollAnswers demo.params.busyLevel 0 ++ []) ∧ WithinBound demo 0 :=
  ⟨rfl, rfl, by decide, by decide, by decide, demo_bound 0⟩

theorem test_witness_SetCursorSends :
    Ready demo ∧ ([0x00, 0x40, 0x14, 0x54] : List Byte)[(if demo.numLines ≤ 1 then 0 else (1 : Byte).toNat)]? = some 0x40 :=
  ⟨demo_ready, by decide⟩

/-- Row 4 of six: the clamp leaves it, and the table has no entry; row 3 is the last with one. -/
theorem test_witness_SetCursorByteAndFault :
    demo.seq = .idle ∧ demo.constructed = true ∧
      4 ≤ (if (6 : Byte) ≤ 4 then (0 : Byte) else 4).toNat ∧
      ([0x00, 0x40, 0x14, 0x54] : List Byte)[(if (6 : Byte) ≤ 3 then (0 : Byte) else 3).toNat]? = some 0x54 := by decide

theorem test_witness_CreateCharSends :
    Ready { demo with device := .script (List.replicate 9 .low) } ∧
      Device.script (List.replicate 9 .low)
        = .script ([0, 0, 0, 0, 0, 0, 0, 0, 0].flatMap (pollAnswers demo.params.busyLevel) ++ []) ∧
      ∀ j ∈ [0, 0, 0, 0, 0, 0, 0, 0, 0], WithinBound demo j :=
  ⟨⟨rfl, rfl, by decide⟩, by decide, fun j _ => demo_bound j⟩

theorem test_witness_RequestsExpandToCommand :
    demo.seq = .idle ∧ demo.constructed = true ∧
      expansion demo .cursor = some ({ demo with dispctl := 0b110 }, 0x0E) := by decide

theorem test_witness_TogglesAreReversible :
    demo.seq = .idle ∧ demo.constructed = true ∧ { demo with dispctl := 0b110 }.dispctl = 0b110 ∧
      demo.dispctl &&& 0b010 = 0 ∧ demo.entry &&& 0b01 = 0 := by decide

theorem test_witness_BoundedHandshakeGivesUp :
    { demoBounded with seq := .running .clear (waitForReadyOps ++ [opWait 7]) none }.seq
        = .running .clear (waitForReadyOps ++ [opWait 7]) none ∧
      linesDriven demoBounded.lines = true ∧ linesDriven dataLines = true ∧ demoBounded.params.pollLimit = some 2 ∧ 1 ≤ 2 ∧
      demoBounded.device = .script (List.replicate 2 demoBounded.params.busyLevel ++ []) := by decide

theorem test_witness_RequestsGiveUpUnderABound :
    Ready demoBounded ∧ demoBounded.params.pollLimit = some 2 ∧ 1 ≤ 2 ∧
      demoBounded.device = .script (List.replicate 2 demoBounded.params.busyLevel ++ []) :=
  ⟨demoBounded_ready, rfl, by decide, by decide⟩

theorem test_witness_RequestsGiveUpUnderABound_expansion :
    expansion demoBounded .home = some (demoBounded, 0x02) ∧
      expansion demoBounded (.setCursor 5 1) = some (demoBounded, 0xC5) ∧
      expansion demoBounded .noDisplay = some ({ demoBounded with dispctl := 0b000 }, 0x08) := by decide

/-- A `demo` whose device always answers busy. -/
def demoBusy : State := { demo with device := .stuck .high }

theorem test_witness_UnboundedHandshakeHangs :
    { demoBusy with lines := dataLines, seq := .running (.write 1) (waitForReadyOps ++ [Op.returnOne]) none }.seq
        = .running (.write 1) (waitForReadyOps ++ [Op.returnOne]) none ∧
      linesDriven dataLines = true ∧ demoBusy.params.pollLimit = none ∧ demoBusy.device = .stuck demoBusy.params.busyLevel ∧
      inv demoBusy = true ∧ demoBusy.seq = .idle ∧ (Instr.write 1).wellFormed = true ∧ Ready demoBusy :=
  ⟨rfl, by decide, rfl, rfl, by decide, rfl, rfl, ⟨rfl, rfl, by decide⟩⟩

theorem test_witness_UnboundedHandshakeHangs_accepted :
    ∃ t, exec .clear demoBusy = .next t ∧ t.seq = .running .clear (sendOps 0x01 .low) none := ⟨_, rfl, rfl⟩

theorem test_witness_StuckReadyDeviceNeverStopsATransfer :
    (demoRunning (.write 1) (waitForReadyOps ++ [Op.returnOne])).seq
        = .running (.write 1) (waitForReadyOps ++ [Op.returnOne]) none ∧
      linesDriven dataLines = true ∧ Ready { demo with device := .stuck .low } ∧ Level.low ≠ demo.params.busyLevel ∧
      expansion demo .clear = some (demo, 0x01) :=
  ⟨rfl, by decide, ⟨rfl, rfl, by decide⟩, by decide, by decide⟩

/-- V-I7 and its like: the first command of step 8 fails (`js` empty), and the last one; with and without a block. -/
theorem test_witness_SequencesGiveUp_sequence :
    ([0x08, 0x01, 0x06, 0x02, 0x0C] : List Byte)[([] : List Nat).length]? = some 0x08 ∧
      ([0x08, 0x01, 0x06, 0x02, 0x0C] : List Byte)[[0, 1, 0, 1].length]? = some 0x0C ∧ (∀ j ∈ [0, 1, 0, 1], j < 2) ∧
      demoBounded.params.pollLimit = some 2 ∧
      demoBounded.device = .script (([] : List Nat).flatMap (pollAnswers demoBounded.params.busyLevel)
        ++ List.replicate 2 demoBounded.params.busyLevel ++ []) ∧
      demoBounded.seq = .idle ∧ demoBounded.constructed = true ∧
      { demoBounded with constructed := false }.constructed = false ∧ [0, 1, 2, 3, 4, 5, 6].Nodup := by decide

/-- V-F4: the third transfer fails; and the ninth. -/
theorem test_witness_SequencesGiveUp_createChar :
    (((0x58, .low) :: [1, 2, 4, 8, 16, 32, 64, 128].map (fun x => (x, .high)) : List (Byte × Level))[[0, 0].length]?
        = some (0x02, .high)) ∧
      (((0x58, .low) :: [1, 2, 4, 8, 16, 32, 64, 128].map (fun x => (x, .high)) : List (Byte × Level))[
        [0, 0, 0, 0, 0, 0, 0, 0].length]? = some (0x80, .high)) ∧
      Device.script [.low, .low, .high, .high] = .script ([0, 0].flatMap (pollAnswers demoBounded.params.busyLevel)
        ++ List.replicate 2 demoBounded.params.busyLevel ++ []) := by decide

theorem test_witness_TextRoundTrip : encode .clear = some "CLEAR".toList := rfl

theorem test_witness_BusWords :
    (busWords 2 0b100 0b10 (.setCursor 5 1)).head? = some 0x0C5 ∧
      tableRow (.setCursor 5 1) = some (0x080, 0x180) ∧
      busWords 2 0b100 0b10 (.setCursor 5 1) = 0x0C5 :: [] ∧ (Instr.setCursor 5 1).wellFormed = true := by decide

theorem test_witness_TransferShowsItsBusWord :
    linesIdle demo.lines = true ∧ Ready demo ∧ tableRow (.write 0x48) ≠ none ∧
      [0].length = (busWords demo.numLines demo.dispctl demo.entry (.write 0x48)).length ∧
      demo.device = .script ([0].flatMap (pollAnswers demo.params.busyLevel) ++ []) ∧ (∀ j ∈ [0], WithinBound demo j) :=
  ⟨by decide, demo_ready, by decide, by decide, by decide, fun j _ => demo_bound j⟩

/-- BEGIN and CONSTRUCT share the witnesses of their completion. -/
theorem test_witness_TransferShowsItsBusWord_sequence :
    Ready { demo with device := freshReady.device } ∧
      freshReady.device = .script (fiveAnswers demo.params.busyLevel 0 0 0 0 0 ++ []) ∧
      ∀ j ∈ [0, 0, 0, 0, 0], WithinBound { demo with device := freshReady.device } j :=
  ⟨⟨rfl, rfl, by decide⟩, by decide, fun j _ => demo_bound j⟩

/-- A step of a built block that meets the invariant and appends an event. -/
theorem test_witness_PlatformTraceFollowsTheLineMap :
    inv strobing = true ∧ strobing.constructed = true ∧ step strobing = .next (advance strobing) ∧
      (advance strobing).trace = strobing.trace ++ [.wait 50] := ⟨by decide, rfl, rfl, by decide⟩

end Sys2Proof.Tests
end

section
/-! SUPPORT. The pieces of a transfer wherever they stand in a microprogram: the two nibbles, the handshake's entry, loop and exit, and
SEND put together from them. -/

namespace Sys2Proof.Safety

open Sys2Proof.Machine

/-! ## Driven lines -/

theorem linesDriven_iff {c : PerLine LineState} :
    linesDriven c = true ↔
      c.rs.dir = .output ∧ c.rw.dir = .output ∧ c.e = outputAt .low ∧ c.data0.dir = .output ∧
        c.data1.dir = .output ∧ c.data2.dir = .output ∧ c.data3.dir = .output := by
  have he : c.e = outputAt .low ↔ c.e.dir = .output ∧ c.e.lvl = .low := by
    cases c.e
    simp [outputAt, driveLevel]
  simp only [linesDriven, Bool.and_eq_true, beq_iff_eq, he]
  tauto

/-- The lines after the two nibbles of `v` have been strobed, before the handshake (41_transfer R150, R152). -/
def linesAfterNibbles (v : Byte) (m : Level) : PerLine LineState :=
  { rs := outputAt m, rw := outputAt .low, e := outputAt .low,
    data0 := outputAt (nibbleLevel (lowNibble v) 0), data1 := outputAt (nibbleLevel (lowNibble v) 1),
    data2 := outputAt (nibbleLevel (lowNibble v) 2), data3 := outputAt (nibbleLevel (lowNibble v) 3) }

/-- The lines while a handshake that found `c` polls: RS Low, RW High, DATA3 an input (42_handshake R172). -/
def linesInHandshake (c : PerLine LineState) : PerLine LineState :=
  { c with rs := outputAt .low, rw := outputAt .high, data3 := { c.data3 with dir := .input } }

theorem linesDriven_linesAfterNibbles (v : Byte) (m : Level) : linesDriven (linesAfterNibbles v m) = true :=
  linesDriven_iff.mpr ⟨rfl, rfl, rfl, rfl, rfl, rfl, rfl⟩

theorem linesPolling_linesInHandshake {c : PerLine LineState} (h : linesDriven c = true) :
    linesPolling (linesInHandshake c) = true := by
  obtain ⟨-, -, he, h0, h1, h2, -⟩ := linesDriven_iff.mp h
  simp [linesPolling, linesInHandshake, outputAt, driveLevel, he, h0, h1, h2]

theorem linesAfterHandshake_linesAfterNibbles (v : Byte) (m : Level) :
    linesAfterHandshake (linesAfterNibbles v m) = linesAfterSend v := rfl

/-! ## Settling at a procedure's first event -/

@[simp] theorem settle_write4bits (q : Instr) (b : Option Level) (n : Nibble) (rest : List Op) (s : State) :
    settle q b (write4bitsOps n ++ rest) s = s.withSeq (.running q (write4bitsOps n ++ rest) b) := rfl

@[simp] theorem settle_waitForReady (q : Instr) (b : Option Level) (rest : List Op) (s : State) :
    settle q b (waitForReadyOps ++ rest) s = s.withSeq (.running q (waitForReadyOps ++ rest) b) := rfl

@[simp] theorem settle_send (q : Instr) (b : Option Level) (v : Byte) (m : Level) (rest : List Op) (s : State) :
    settle q b (sendOps v m ++ rest) s = s.withSeq (.running q (sendOps v m ++ rest) b) := rfl

/-- Settling does not depend on where SEQ stood. -/
theorem settle_congr_seq {q : Instr} {b : Option Level} {ops : List Op} {s t : State}
    (h : s.withSeq .idle = t.withSeq .idle) : settle q b ops s = settle q b ops t := by
  rw [← settle_withSeq q b ops s .idle, h, settle_withSeq]

/-! ## The pieces of a transfer -/

theorem clearPolls_eq_pollsAfter (s : State) : clearPolls s = { s with polls := pollsAfter s 0 } := by
  unfold clearPolls pollsAfter
  cases s.params.pollLimit <;> rfl

/-- A loop that starts from the cleared POLLS of a handshake begun at `s` ends with that handshake's polls (10_state R36). -/
theorem pollsPlus_of_cleared {s t : State} (hparams : t.params = s.params) (hpolls : t.polls = pollsAfter s 0) (j : Nat) :
    pollsPlus t j = pollsAfter s j := by
  unfold pollsPlus
  rw [hparams, hpolls]
  unfold pollsAfter
  cases s.params.pollLimit <;> simp

/-- The entry of the handshake: 3 steps, POLLS cleared, and the loop at its first event (42_handshake R170, R172). -/
theorem run_handshakeEntry {q : Instr} {rest : List Op} {b : Option Level} {s : State}
    (hs : s.seq = .running q (waitForReadyOps ++ rest) b) (hl : linesDriven s.lines = true) :
    run 3 s = .next
      { s with
        seq := .running q (pollIterationOps ++ .pollDecide :: rest) b
        lines := linesInHandshake s.lines
        polls := pollsAfter s 0
        trace := s.trace ++ [.dir .data3 .input, .set .rs .low, .set .rw .high] } := by
  obtain ⟨hrs, hrw, -, -, -, -, -⟩ := linesDriven_iff.mp hl
  have hp : performAll [.dir .data3 .input, .set .rs .low, .set .rw .high] b s = .ok (b,
      { s with
        lines := linesInHandshake s.lines
        trace := s.trace ++ [.dir .data3 .input, .set .rs .low, .set .rw .high] }) := by
    simp [performAll, perform, lineDir, lineSet, PerLine.get, PerLine.put, dirLines, setLines, dirState,
      State.withLines, State.appendEvent, hrs, hrw, linesInHandshake, outputAt]
  have hrun := run_performAll (rest := .clearPolls :: (pollIterationOps ++ .pollDecide :: rest)) (by simp)
    (by simpa [waitForReadyOps] using hs) hp
  simpa [settle, clearPolls_eq_pollsAfter, pollIterationOps, State.withSeq, pollsAfter] using hrun

/-- The exit of the handshake, whatever led to it: 2 steps, DATA3 an output at Unknown and RW Low (42_handshake R173). -/
theorem run_handshakeExit {q : Instr} {rest : List Op} {b : Option Level} {s : State}
    (hs : s.seq = .running q (handshakeExitOps ++ rest) b)
    (hrw : s.lines.rw.dir = .output) (h3 : s.lines.data3.dir = .input) :
    run 2 s = .next (settle q b rest
      { s with
        lines := { s.lines with rw := outputAt .low, data3 := { dir := .output, lvl := .unknown } }
        trace := s.trace ++ [.dir .data3 .output, .set .rw .low] }) := by
  refine run_performAll (ps := [.dir .data3 .output, .set .rw .low]) (by simp) hs ?_
  simp [performAll, perform, lineDir, lineSet, PerLine.get, PerLine.put, dirLines, setLines, dirState,
    State.withLines, State.appendEvent, hrw, h3, outputAt]

/-- WAIT_FOR_READY wherever it stands in a microprogram, the device busy `j` times and then ready, within the bound: `13 + 8j` steps, and
then what follows it (42_handshake R170 to R173). -/
theorem run_waitForReady {q : Instr} {rest : List Op} {more : List Level} (j : Nat) {b : Option Level} {s : State}
    (hs : s.seq = .running q (waitForReadyOps ++ rest) b) (hl : linesDriven s.lines = true)
    (hd : s.device = .script (pollAnswers s.params.busyLevel j ++ more)) (hb : WithinBound s j) :
    run (13 + 8 * j) s = .next (settle q none rest
      { s with
        lines := linesAfterHandshake s.lines
        trace := s.trace ++ handshakeTrace (pollAnswers s.params.busyLevel j)
        polls := pollsAfter s j
        device := .script more }) := by
  have hcount : ∀ k, s.params.pollLimit = some k → pollsAfter s 0 + j < k := fun k hk => by
    simpa [pollsAfter, hk] using hb k hk
  calc run (13 + 8 * j) s
    _ = run (3 + (8 * (j + 1) + 2)) s := by rw [show 13 + 8 * j = 3 + (8 * (j + 1) + 2) by omega]
    _ = run (8 * (j + 1) + 2) _ := run_add _ (run_handshakeEntry hs hl)
    _ = run 2 _ := run_add _ (run_pollLoop j rfl (linesPolling_linesInHandshake hl) hd hcount)
    _ = _ := run_handshakeExit rfl rfl rfl
    _ = _ := congrArg _ (settle_congr_seq ?_)
  simp [pollsPlus_of_cleared (s := s), State.withSeq, linesInHandshake, linesAfterHandshake, handshakeTrace]

/-- The control lines of SEND: RS at the mode, RW Low, and the first nibble is next (41_transfer R152). -/
theorem run_sendControl {q : Instr} {rest : List Op} {b : Option Level} {s : State} {v : Byte} {m : Level}
    (hs : s.seq = .running q (sendOps v m ++ rest) b) (hrs : s.lines.rs.dir = .output) (hrw : s.lines.rw.dir = .output) :
    run 2 s = .next
      { s with
        seq := .running q (write4bitsOps (highNibble v) ++ (write4bitsOps (lowNibble v) ++ (waitForReadyOps ++ rest))) b
        lines := { s.lines with rs := outputAt m, rw := outputAt .low }
        trace := s.trace ++ [.set .rs m, .set .rw .low] } := by
  refine run_performAll (ps := [.set .rs m, .set .rw .low])
    (rest := write4bitsOps (highNibble v) ++ (write4bitsOps (lowNibble v) ++ (waitForReadyOps ++ rest)))
    (t := { s with
      lines := { s.lines with rs := outputAt m, rw := outputAt .low }
      trace := s.trace ++ [.set .rs m, .set .rw .low] }) (by simp) hs ?_
  simp [performAll, perform, lineSet, PerLine.get, PerLine.put, setLines, State.withLines, State.appendEvent, hrs, hrw,
    outputAt]

/-- The first 18 events of SEND, wherever it stands in a microprogram: RS at the mode, RW Low, and the two nibbles, the high one first; the
handshake is next (41_transfer R152). -/
theorem run_sendNibbles {q : Instr} {rest : List Op} {b : Option Level} {s : State} {v : Byte} {m : Level}
    (hs : s.seq = .running q (sendOps v m ++ rest) b) (hl : linesDriven s.lines = true) :
    run 18 s = .next
      { s with
        seq := .running q (waitForReadyOps ++ rest) b
        lines := linesAfterNibbles v m
        trace := s.trace ++ ([.set .rs m, .set .rw .low] ++ nibTrace (highNibble v) ++ nibTrace (lowNibble v)) } := by
  obtain ⟨hrs, hrw, he, h0, h1, h2, h3⟩ := linesDriven_iff.mp hl
  calc run 18 s
    _ = run 16 _ := run_add 16 (run_sendControl hs hrs hrw)
    _ = run 8 _ := run_add 8 (run_write4bits rfl (by rw [he]; rfl) h0 h1 h2 h3)
    _ = _ := run_write4bits rfl rfl rfl rfl rfl rfl
    _ = _ := ?_
  simp [linesAfterNibbles, State.withSeq]

/-- SEND wherever it stands in a microprogram, the device busy `j` times and then ready, within the bound: `31 + 8j` steps, and then what
follows it (00_scope R12; 41_transfer R152). -/
theorem run_send {q : Instr} {rest : List Op} {more : List Level} (j : Nat) {b : Option Level} {s : State} {v : Byte}
    {m : Level} (hs : s.seq = .running q (sendOps v m ++ rest) b) (hl : linesDriven s.lines = true)
    (hd : s.device = .script (pollAnswers s.params.busyLevel j ++ more)) (hb : WithinBound s j) :
    run (31 + 8 * j) s = .next (settle q none rest (afterSend s v m j more)) := by
  calc run (31 + 8 * j) s
    _ = run (18 + (13 + 8 * j)) s := by rw [show 31 + 8 * j = 18 + (13 + 8 * j) by omega]
    _ = run (13 + 8 * j) _ := run_add _ (run_sendNibbles hs hl)
    _ = _ := run_waitForReady j rfl (linesDriven_linesAfterNibbles v m) hd hb
    _ = _ := congrArg _ (settle_congr_seq ?_)
  simp [State.withSeq, afterSend, sendTrace, linesAfterHandshake_linesAfterNibbles, pollsAfter]

/-- Settles O30: the running request goes to SEND's first event, and from there SEND runs to `rest`. -/
theorem sendRunsInPlace : Obligations.SendRunsInPlace := by
  intro s q rest b v mode j more hs hl hd hb
  refine ⟨s.withSeq (.running q (sendOps v mode ++ rest) b), ?_, ?_⟩
  · exact (runProcedure_of_running hs).trans (congrArg _ (settle_send q b v mode rest s))
  · rw [run_send j (State.withSeq_seq _ s) hl hd hb]
    exact congrArg _ (settle_congr_seq rfl)

end Sys2Proof.Safety
end

section
/-! SUPPORT. The invariant case by case, and the microprograms that are safe from the lines they start at (41_transfer R155, R156). -/

namespace Sys2Proof.Safety

open Sys2Proof.Machine

/-! ## Idle lines -/

theorem linesIdle_iff {c : PerLine LineState} :
    linesIdle c = true ↔ linesDriven c = true ∧ c.rs.lvl = .low ∧ c.rw.lvl = .low := by
  simp only [linesIdle, linesDriven, Bool.and_eq_true, beq_iff_eq]
  tauto

theorem linesDriven_of_linesIdle {c : PerLine LineState} (h : linesIdle c = true) : linesDriven c = true :=
  (linesIdle_iff.mp h).1

theorem linesIdle_linesAfterSend (v : Byte) : linesIdle (linesAfterSend v) = true := rfl

theorem e_ne_high_of_linesIdle {c : PerLine LineState} (h : linesIdle c = true) : c.e.lvl ≠ .high := by
  obtain ⟨-, -, he, -⟩ := linesDriven_iff.mp (linesDriven_of_linesIdle h)
  simp [he, outputAt, driveLevel]

/-- While the handshake polls, E is Low between strobes and DATA3 an input. -/
theorem linesPolling_e_data3 {c : PerLine LineState} (h : linesPolling c = true) :
    c.e = outputAt .low ∧ c.data3.dir = .input := by
  obtain ⟨rs, rw, ⟨dir, lvl⟩, d0, d1, d2, d3⟩ := c
  simp_all [linesPolling, outputAt, driveLevel]

/-- The lines the exit of a handshake leaves are idle (42_handshake R173, R177). -/
theorem linesIdle_of_linesPolling {c : PerLine LineState} (h : linesPolling c = true) :
    linesIdle (setLines .rw .low (dirLines .data3 .output c)) = true := by
  simp_all [linesPolling, linesIdle, setLines, dirLines, PerLine.put, PerLine.get, dirState, driveLevel]

/-! ## The invariant by the position of SEQ -/

theorem inv_iff_of_idle {s : State} (h : s.seq = .idle) :
    inv s = true ↔
      (s.constructed = true → linesIdle s.lines = true ∧ duplicatedIds (perLineList s.lineMap) = []) := by
  cases hc : s.constructed <;> simp [inv, h, hc]

theorem inv_iff_of_running {s : State} {q : Instr} {ops : List Op} {b : Option Level} (h : s.seq = .running q ops b) :
    inv s = true ↔
      s.constructed = true ∧ atEvent ops = true ∧ opsSafe s.lines ops = true ∧
        duplicatedIds (perLineList s.lineMap) = [] := by
  cases hc : s.constructed <;> simp [inv, h, hc, and_assoc]

/-! ## What each primitive and each procedure asks of the lines, and where it leaves them -/

theorem opsSafe_dir_iff {c : PerLine LineState} {l : Line} {d : Dir} {rest : List Op} :
    opsSafe c (.bus (.dir l d) :: rest) = true ↔ c.e.lvl ≠ .high ∧ opsSafe (dirLines l d c) rest = true := by
  simp [opsSafe]

theorem opsSafe_set_iff {c : PerLine LineState} {l : Line} {v : Level} {rest : List Op} :
    opsSafe c (.bus (.set l v) :: rest) = true ↔
      (PerLine.get c l).dir = .output ∧ (l = .e ∨ c.e.lvl ≠ .high) ∧ opsSafe (setLines l v c) rest = true := by
  simp [opsSafe, and_assoc]

theorem opsSafe_get_iff {c : PerLine LineState} {l : Line} {rest : List Op} :
    opsSafe c (.bus (.get l) :: rest) = true ↔ (PerLine.get c l).dir = .input ∧ opsSafe c rest = true := by
  simp [opsSafe]

theorem opsSafe_pollDecide_iff {c : PerLine LineState} {rest : List Op} :
    opsSafe c (.pollDecide :: rest) = true ↔
      linesPolling c = true ∧ opsSafe (setLines .rw .low (dirLines .data3 .output c)) rest = true := by
  simp [opsSafe]

theorem opsSafe_write4bits {c : PerLine LineState} (n : Nibble) (rest : List Op) (h : linesDriven c = true) :
    opsSafe c (write4bitsOps n ++ rest) = true ↔
      opsSafe { c with
        e := outputAt .low, data0 := outputAt (nibbleLevel n 0), data1 := outputAt (nibbleLevel n 1),
        data2 := outputAt (nibbleLevel n 2), data3 := outputAt (nibbleLevel n 3) } rest = true := by
  obtain ⟨-, -, he, h0, h1, h2, h3⟩ := linesDriven_iff.mp h
  simp [write4bitsOps, pulseEnableOps, opsSafe, setLines, PerLine.get, PerLine.put, outputAt, driveLevel, he, h0, h1,
    h2, h3]

/-- A strobe leaves the lines as it found them. -/
theorem opsSafe_pulseEnable {c : PerLine LineState} (rest : List Op) (he : c.e = outputAt .low) :
    opsSafe c (pulseEnableOps ++ rest) = true ↔ opsSafe c rest = true := by
  cases c
  cases he
  simp [pulseEnableOps, opsSafe, setLines, PerLine.get, PerLine.put, driveLevel]

/-- One poll iteration finds the lines polling and leaves them so (42_handshake R171). -/
theorem opsSafe_pollIteration {c : PerLine LineState} (rest : List Op) (h : linesPolling c = true) :
    opsSafe c (pollIterationOps ++ rest) = true ↔ opsSafe c rest = true := by
  obtain ⟨he, h3⟩ := linesPolling_e_data3 h
  obtain ⟨rs, rw, e, d0, d1, d2, d3⟩ := c
  cases he
  simp [pollIterationOps, pulseEnableOps, opsSafe, setLines, PerLine.get, PerLine.put, driveLevel,
    show d3.dir = .input from h3]

theorem opsSafe_handshakeExit {c : PerLine LineState} (rest : List Op) (h : linesPolling c = true) :
    opsSafe c (handshakeExitOps ++ rest) = true ↔
      opsSafe (setLines .rw .low (dirLines .data3 .output c)) rest = true := by
  simp only [linesPolling, Bool.and_eq_true, beq_iff_eq] at h
  simp [handshakeExitOps, opsSafe_dir_iff, opsSafe_set_iff, dirLines, PerLine.get, PerLine.put, h]

/-- WAIT_FOR_READY polls with the lines polling, and leaves by its exit (42_handshake R170, R172, R173). -/
theorem opsSafe_waitForReady {c : PerLine LineState} (rest : List Op) (h : linesDriven c = true) :
    opsSafe c (waitForReadyOps ++ rest) = true ↔ opsSafe (linesAfterHandshake c) rest = true := by
  obtain ⟨hrs, hrw, he, -, -, -, -⟩ := linesDriven_iff.mp h
  calc opsSafe c (waitForReadyOps ++ rest) = true
    _ ↔ opsSafe (linesInHandshake c) (pollIterationOps ++ .pollDecide :: rest) = true := by
      simp [waitForReadyOps, opsSafe, dirLines, setLines, PerLine.get, PerLine.put, linesInHandshake, outputAt, dirState,
        driveLevel, he, hrs, hrw]
    _ ↔ opsSafe (linesInHandshake c) (.pollDecide :: rest) = true := opsSafe_pollIteration _ (linesPolling_linesInHandshake h)
    _ ↔ opsSafe (linesAfterHandshake c) rest = true := by
      rw [opsSafe_pollDecide_iff, and_iff_right (linesPolling_linesInHandshake h)]
      rfl

theorem opsSafe_send {c : PerLine LineState} (v : Byte) (m : Level) (rest : List Op) (h : linesDriven c = true) :
    opsSafe c (sendOps v m ++ rest) = true ↔ opsSafe (linesAfterSend v) rest = true := by
  obtain ⟨hrs, hrw, he, h0, h1, h2, h3⟩ := linesDriven_iff.mp h
  have hcontrol : linesDriven { c with rs := outputAt m, rw := outputAt .low } = true :=
    linesDriven_iff.mpr ⟨rfl, rfl, he, h0, h1, h2, h3⟩
  calc opsSafe c (sendOps v m ++ rest) = true
    _ ↔ opsSafe { c with rs := outputAt m, rw := outputAt .low }
          (write4bitsOps (highNibble v) ++ (write4bitsOps (lowNibble v) ++ (waitForReadyOps ++ rest))) = true := by
      simp [sendOps, opsSafe, setLines, PerLine.get, PerLine.put, outputAt, driveLevel, he, hrs, hrw]
    _ ↔ _ := opsSafe_write4bits _ _ hcontrol
    _ ↔ opsSafe (linesAfterNibbles v m) (waitForReadyOps ++ rest) = true := opsSafe_write4bits _ _ rfl
    _ ↔ opsSafe (linesAfterSend v) rest = true := opsSafe_waitForReady _ (linesDriven_linesAfterNibbles v m)

/-- Every line an output at Low. -/
def linesConfigured : PerLine LineState :=
  { rs := outputAt .low, rw := outputAt .low, e := outputAt .low, data0 := outputAt .low, data1 := outputAt .low,
    data2 := outputAt .low, data3 := outputAt .low }

/-- Steps 1 and 2 of the power-on sequence turn every line to an output at Low, from any lines with E not High
(40_init_sequencer R133). -/
theorem opsSafe_configure {c : PerLine LineState} (rest : List Op) (h : c.e.lvl ≠ .high) :
    opsSafe c (controlLineOps ++ (dataLineOps ++ rest)) = true ↔ opsSafe linesConfigured rest = true := by
  by_cases hd : c.e.dir = .output <;>
    simp [controlLineOps, dataLineOps, opsSafe, dirLines, setLines, PerLine.get, PerLine.put, linesConfigured, outputAt,
      dirState, driveLevel, h, hd]

/-! ## Microprograms that find the lines idle and leave them idle (41_transfer R156; 10_state R42) -/

/-- The piece of microprogram `ops` is safe from idle lines, and what follows it finds the lines idle again. -/
def KeepsIdle (ops : List Op) : Prop :=
  ∀ c, linesIdle c = true →
    ∃ c', linesIdle c' = true ∧ ∀ rest, opsSafe c (ops ++ rest) = true ↔ opsSafe c' rest = true

theorem KeepsIdle.safe {ops : List Op} (h : KeepsIdle ops) {c : PerLine LineState} (hc : linesIdle c = true) :
    opsSafe c ops = true := by
  obtain ⟨c', hc', hs⟩ := h c hc
  rw [← List.append_nil ops]
  exact (hs []).mpr hc'

theorem KeepsIdle.append {xs ys : List Op} (hx : KeepsIdle xs) (hy : KeepsIdle ys) : KeepsIdle (xs ++ ys) := by
  intro c hc
  obtain ⟨c1, hc1, h1⟩ := hx c hc
  obtain ⟨c2, hc2, h2⟩ := hy c1 hc1
  exact ⟨c2, hc2, fun rest => by rw [List.append_assoc, h1, h2]⟩

theorem keepsIdle_nil : KeepsIdle [] := fun c hc => ⟨c, hc, fun _ => Iff.rfl⟩

theorem keepsIdle_flatMap {α : Type} {f : α → List Op} (h : ∀ x, KeepsIdle (f x)) (xs : List α) :
    KeepsIdle (xs.flatMap f) := by
  induction xs with
  | nil => exact keepsIdle_nil
  | cons x xs ih => exact (h x).append ih

theorem keepsIdle_wait (us : Nat) : KeepsIdle [opWait us] := fun c hc => ⟨c, hc, fun _ => Iff.rfl⟩

theorem keepsIdle_shadows : KeepsIdle [.shadows] := fun c hc => ⟨c, hc, fun _ => Iff.rfl⟩

theorem keepsIdle_returnOne : KeepsIdle [.returnOne] := fun c hc => ⟨c, hc, fun _ => Iff.rfl⟩

theorem keepsIdle_pulseEnable : KeepsIdle pulseEnableOps := by
  intro c hc
  obtain ⟨-, -, he, -⟩ := linesDriven_iff.mp (linesDriven_of_linesIdle hc)
  exact ⟨c, hc, fun rest => opsSafe_pulseEnable rest he⟩

theorem keepsIdle_write4bits (n : Nibble) : KeepsIdle (write4bitsOps n) := by
  intro c hc
  obtain ⟨hd, hrs, hrw⟩ := linesIdle_iff.mp hc
  obtain ⟨hrsd, hrwd, -⟩ := linesDriven_iff.mp hd
  refine ⟨_, ?_, fun rest => opsSafe_write4bits n rest hd⟩
  exact linesIdle_iff.mpr ⟨linesDriven_iff.mpr ⟨hrsd, hrwd, rfl, rfl, rfl, rfl, rfl⟩, hrs, hrw⟩

theorem keepsIdle_waitForReady : KeepsIdle waitForReadyOps := by
  intro c hc
  have hd := linesDriven_of_linesIdle hc
  obtain ⟨-, -, he, h0, h1, h2, -⟩ := linesDriven_iff.mp hd
  refine ⟨_, ?_, fun rest => opsSafe_waitForReady rest hd⟩
  exact linesIdle_iff.mpr ⟨linesDriven_iff.mpr ⟨rfl, rfl, he, h0, h1, h2, rfl⟩, rfl, rfl⟩

theorem keepsIdle_send (v : Byte) (m : Level) : KeepsIdle (sendOps v m) := fun _ hc =>
  ⟨linesAfterSend v, linesIdle_linesAfterSend v, fun rest => opsSafe_send v m rest (linesDriven_of_linesIdle hc)⟩

/-- The microprogram of POWER_ON_SEQUENCE after the geometry has been written, from its first event on (40_init_sequencer R132). -/
def sequenceOps (variant : Variant) : List Op :=
  controlLineOps ++ (dataLineOps ++ ((loneNibbles variant).flatMap loneNibbleOps
    ++ (initCommands.flatMap initCommandOps ++ [.shadows])))

theorem powerOnOps_eq (variant : Variant) (cols rows : Byte) :
    powerOnOps variant cols rows = .geometry cols rows :: sequenceOps variant := by
  simp [powerOnOps, sequenceOps]

/-- The power-on sequence is safe from any lines with E not High: from those of a fresh block and from those of an idle one. -/
theorem opsSafe_sequence {c : PerLine LineState} (variant : Variant) (h : c.e.lvl ≠ .high) :
    opsSafe c (sequenceOps variant) = true := by
  have hnibbles : KeepsIdle ((loneNibbles variant).flatMap loneNibbleOps) :=
    keepsIdle_flatMap (fun n => (keepsIdle_write4bits n).append (keepsIdle_wait _)) _
  have hcommands : KeepsIdle (initCommands.flatMap initCommandOps) :=
    keepsIdle_flatMap (fun v => (keepsIdle_send v .low).append (keepsIdle_wait _)) _
  exact (opsSafe_configure _ h).mpr ((hnibbles.append (hcommands.append keepsIdle_shadows)).safe rfl)

end Sys2Proof.Safety
end

section
/-! SUPPORT. What taking an instruction and what one step can do, each said once. -/

namespace Sys2Proof.Safety

open Sys2Proof.Machine

/-! ## The sequencer at an event -/

theorem atEvent_iff {ops : List Op} : atEvent ops = true ↔ ∃ p rest, ops = .bus p :: rest := by
  constructor
  · intro h
    unfold atEvent at h
    split at h
    · exact ⟨_, _, rfl⟩
    · cases h
  · rintro ⟨p, rest, rfl⟩
    rfl

theorem settle_atEvent {ops : List Op} (h : atEvent ops = true) (q : Instr) (b : Option Level) (rest : List Op)
    (s : State) : settle q b (ops ++ rest) s = s.withSeq (.running q (ops ++ rest) b) := by
  obtain ⟨p, ops, rfl⟩ := atEvent_iff.mp h
  rfl

theorem start_atEvent {ops : List Op} (h : atEvent ops = true) (q : Instr) (s : State) :
    start q ops s = (s.withResult .empty).withSeq (.running q ops none) := by
  simpa [start] using settle_atEvent h q none [] (s.withResult .empty)

theorem settle_powerOn (q : Instr) (b : Option Level) (variant : Variant) (cols rows : Byte) (rest : List Op)
    (s : State) :
    settle q b (powerOnOps variant cols rows ++ rest) s =
      (s.withGeometry cols rows).withSeq (.running q (sequenceOps variant ++ rest) b) := by
  rw [powerOnOps_eq]
  rfl

theorem start_powerOn (q : Instr) (variant : Variant) (cols rows : Byte) (s : State) :
    start q (powerOnOps variant cols rows) s =
      ((s.withResult .empty).withGeometry cols rows).withSeq (.running q (sequenceOps variant) none) := by
  simpa [start] using settle_powerOn q none variant cols rows [] (s.withResult .empty)

/-! ## Taking an instruction -/

/-- The six requests that write DISPCTL (43_command_surface R193 to R198). -/
def displayRequests : List Instr := [.display, .noDisplay, .cursor, .noCursor, .blink, .noBlink]

/-- The four requests that write ENTRY (43_command_surface R201 to R204). -/
def entryRequests : List Instr := [.leftToRight, .rightToLeft, .autoscroll, .noAutoscroll]

/-- What `exec i s` can answer as next state: `exec_taken` says that there is nothing else. -/
inductive Taken (i : Instr) (s : State) : State → Prop
  /-- Another request runs: this one is not taken (60_exceptions R247). -/
  | waits (q : Instr) (ops : List Op) (b : Option Level) (hs : s.seq = .running q ops b) : Taken i s s
  /-- An outcome before any event (60_exceptions R242). -/
  | recorded (r : Record) (hs : s.seq = .idle) : Taken i s (endWithRecord r s)
  /-- Accepted with no register write of its own. -/
  | sends (ops : List Op) (hs : s.seq = .idle) (hc : s.constructed = true) (hat : atEvent ops = true)
      (hidle : KeepsIdle ops) : Taken i s ((s.withResult .empty).withSeq (.running i ops none))
  /-- A display request: DISPCTL written, then one byte sent. -/
  | sendsDispctl (d : BitVec 3) (v : Byte) (hs : s.seq = .idle) (hc : s.constructed = true) (hi : i ∈ displayRequests) :
      Taken i s (((s.withDispctl d).withResult .empty).withSeq (.running i (sendOps v .low) none))
  /-- An entry request: ENTRY written, then one byte sent. -/
  | sendsEntry (t : BitVec 2) (v : Byte) (hs : s.seq = .idle) (hc : s.constructed = true) (hi : i ∈ entryRequests) :
      Taken i s (((s.withEntry t).withResult .empty).withSeq (.running i (sendOps v .low) none))
  /-- A power-on sequence on a built block (40_init_sequencer R131, R132). -/
  | sequence (cols rows : Byte) (hs : s.seq = .idle) (hc : s.constructed = true)
      (hi : i = .beginInit cols rows ∨ i = .powerOnSequence cols rows) :
      Taken i s (((s.withResult .empty).withGeometry cols rows).withSeq (.running i (sequenceOps s.variant) none))
  /-- CONSTRUCT accepted (40_init_sequencer R130; 10_state R41). -/
  | constructs (ver : Byte) (rs rw e d0 d1 d2 d3 : LineId) (hs : s.seq = .idle) (hc : s.constructed = false)
      (hids : [rs, rw, e, d0, d1, d2, d3].Nodup) (hi : i = .construct ver rs rw e d0 d1 d2 d3) :
      Taken i s ((((latchConstruct ver ⟨rs, rw, e, d0, d1, d2, d3⟩ s).withResult .empty).withGeometry
        s.params.defaultCols s.params.defaultRows).withSeq (.running i (sequenceOps (decodeVariant ver)) none))
  /-- An internal procedure that the running request calls in place (00_scope R12). -/
  | inPlace (q : Instr) (ops rest : List Op) (b : Option Level) (hs : s.seq = .running q rest b)
      (hi : i.wellFormed = false) : Taken i s (s.withSeq (.running q (ops ++ rest) b))
  /-- POWER_ON_SEQUENCE called in place: its geometry is written first (40_init_sequencer R132). -/
  | sequenceInPlace (cols rows : Byte) (q : Instr) (rest : List Op) (b : Option Level) (hs : s.seq = .running q rest b)
      (hi : i = .powerOnSequence cols rows) :
      Taken i s ((s.withGeometry cols rows).withSeq (.running q (sequenceOps s.variant ++ rest) b))

section Requests

variable {i : Instr} {s t : State}

theorem taken_of_takeRequest {body : State → State} (h : takeRequest i body s = .next t)
    (hbody : s.seq = .idle → s.constructed = true → Taken i s (body s)) : Taken i s t := by
  obtain ⟨q, ops, b, hs, hr⟩ | ⟨hs, -, hr⟩ | ⟨hs, hc, hr⟩ := takeRequest_cases (i := i) (body := body) (s := s)
  · cases hr.symm.trans h
    exact .waits q ops b hs
  · cases hr.symm.trans h
    exact .recorded _ hs
  · cases hr.symm.trans h
    exact hbody hs hc

theorem taken_of_start {ops : List Op} (h : takeRequest i (start i ops) s = .next t) (hat : atEvent ops = true)
    (hidle : KeepsIdle ops) : Taken i s t :=
  taken_of_takeRequest h fun hs hc => by
    rw [start_atEvent hat]
    exact .sends ops hs hc hat hidle

theorem taken_of_sendCommand {v : Byte} (h : sendCommand i id v s = .next t) : Taken i s t :=
  taken_of_start h rfl (keepsIdle_send v .low)

theorem taken_of_sendDispctl {d : BitVec 3} (hi : i ∈ displayRequests) (h : sendDispctl i d s = .next t) : Taken i s t := by
  rw [sendDispctl, sendCommand] at h
  exact taken_of_takeRequest h fun hs hc => .sendsDispctl d (dispctlCmd d) hs hc hi

theorem taken_of_sendEntry {x : BitVec 2} (hi : i ∈ entryRequests) (h : sendEntry i x s = .next t) : Taken i s t := by
  rw [sendEntry, sendCommand] at h
  exact taken_of_takeRequest h fun hs hc => .sendsEntry x (entryCmd x) hs hc hi

theorem taken_of_runProcedure {ops : List Op} (h : runProcedure i ops s = .next t) (hi : i.wellFormed = false)
    (hat : atEvent ops = true) (hidle : KeepsIdle ops) : Taken i s t := by
  cases hs : s.seq with
  | idle => exact taken_of_start (ops := ops) (by simpa [runProcedure, hs] using h) hat hidle
  | running q rest b =>
    rw [runProcedure_of_running hs, settle_atEvent hat] at h
    cases h
    exact .inPlace q ops rest b hs hi

theorem taken_setCursor {col row : Byte} (h : execSetCursor col row s = .next t) : Taken (.setCursor col row) s t :=
  taken_of_takeRequest h fun hs hc => by
    cases hv : ddramCmd s.numLines col row with
    | none => exact .recorded _ hs
    | some v => exact .sends (sendOps v .low) hs hc rfl (keepsIdle_send v .low)

theorem taken_beginInit {cols rows : Byte} (h : execBeginInit cols rows s = .next t) :
    Taken (.beginInit cols rows) s t :=
  taken_of_takeRequest h fun hs hc => by
    rw [start_powerOn]
    exact .sequence cols rows hs hc (.inl rfl)

theorem taken_powerOnSequence {cols rows : Byte} (h : execPowerOnSequence cols rows s = .next t) :
    Taken (.powerOnSequence cols rows) s t := by
  cases hs : s.seq with
  | idle =>
    refine taken_of_takeRequest (body := start (.powerOnSequence cols rows) (powerOnOps s.variant cols rows))
      (by simpa [execPowerOnSequence, runProcedure, hs] using h) fun hs hc => ?_
    rw [start_powerOn]
    exact .sequence cols rows hs hc (.inr rfl)
  | running q rest b =>
    rw [execPowerOnSequence, runProcedure_of_running hs, settle_powerOn] at h
    cases h
    exact .sequenceInPlace cols rows q rest b hs rfl

/-- CONSTRUCT accepted: the operands latched, the default geometry written, and the sequence at its first event (10_state R41). -/
theorem execConstruct_of_nodup (ver : Byte) (rs rw e d0 d1 d2 d3 : LineId) (hs : s.seq = .idle)
    (hc : s.constructed = false) (hids : [rs, rw, e, d0, d1, d2, d3].Nodup) :
    execConstruct ver rs rw e d0 d1 d2 d3 s = .next
      ((((latchConstruct ver ⟨rs, rw, e, d0, d1, d2, d3⟩ s).withResult .empty).withGeometry
        s.params.defaultCols s.params.defaultRows).withSeq
          (.running (.construct ver rs rw e d0 d1 d2 d3) (sequenceOps (decodeVariant ver)) none)) := by
  simp [execConstruct, hs, hc, duplicatedIds_eq_nil_iff.mpr hids, start_powerOn]

theorem taken_construct {ver : Byte} {rs rw e d0 d1 d2 d3 : LineId}
    (h : execConstruct ver rs rw e d0 d1 d2 d3 s = .next t) : Taken (.construct ver rs rw e d0 d1 d2 d3) s t := by
  cases hs : s.seq with
  | running q ops b =>
    simp only [execConstruct, hs, Host.Outcome.next.injEq] at h
    exact h ▸ .waits q ops b hs
  | idle =>
    cases hc : s.constructed with
    | true =>
      simp only [execConstruct, hs, hc, if_true, Host.Outcome.next.injEq] at h
      exact h ▸ .recorded _ hs
    | false =>
      cases hd : duplicatedIds [rs, rw, e, d0, d1, d2, d3] with
      | nil =>
        have hids := duplicatedIds_eq_nil_iff.mp hd
        cases (execConstruct_of_nodup ver rs rw e d0 d1 d2 d3 hs hc hids).symm.trans h
        exact .constructs ver rs rw e d0 d1 d2 d3 hs hc hids rfl
      | cons x xs =>
        simp only [execConstruct, hs, hc, hd, Bool.false_eq_true, if_false, Host.Outcome.next.injEq] at h
        exact h ▸ .recorded _ hs

end Requests

/-- Taking an instruction does one of the things `Taken` lists. -/
theorem exec_taken {i : Instr} {s t : State} (h : exec i s = .next t) : Taken i s t := by
  cases i with
  | construct ver rs rw e d0 d1 d2 d3 => exact taken_construct h
  | beginInit cols rows => exact taken_beginInit h
  | command v => exact taken_of_sendCommand h
  | write v => exact taken_of_start h rfl ((keepsIdle_send v .high).append keepsIdle_returnOne)
  | clear => exact taken_of_sendCommand h
  | home => exact taken_of_sendCommand h
  | setCursor col row => exact taken_setCursor h
  | display => exact taken_of_sendDispctl (by decide) h
  | noDisplay => exact taken_of_sendDispctl (by decide) h
  | cursor => exact taken_of_sendDispctl (by decide) h
  | noCursor => exact taken_of_sendDispctl (by decide) h
  | blink => exact taken_of_sendDispctl (by decide) h
  | noBlink => exact taken_of_sendDispctl (by decide) h
  | scrollDisplayLeft => exact taken_of_sendCommand h
  | scrollDisplayRight => exact taken_of_sendCommand h
  | leftToRight => exact taken_of_sendEntry (by decide) h
  | rightToLeft => exact taken_of_sendEntry (by decide) h
  | autoscroll => exact taken_of_sendEntry (by decide) h
  | noAutoscroll => exact taken_of_sendEntry (by decide) h
  | createChar slot bitmap =>
    exact taken_of_start h rfl ((keepsIdle_send _ .low).append (keepsIdle_flatMap (fun v => keepsIdle_send v .high) _))
  | write4bits n => exact taken_of_runProcedure h rfl rfl (keepsIdle_write4bits n)
  | pulseEnable => exact taken_of_runProcedure h rfl rfl keepsIdle_pulseEnable
  | send v mode => exact taken_of_runProcedure h rfl rfl (keepsIdle_send v mode)
  | waitForReady => exact taken_of_runProcedure h rfl rfl keepsIdle_waitForReady
  | powerOnSequence cols rows => exact taken_powerOnSequence h

/-! ## One step -/

/-- A step is one move of the running request, a wait with nothing offered, or a host request taken (60_exceptions R247, R251). -/
theorem step_cases {s t : State} (h : step s = .next t) :
    (∃ q ops b, s.seq = .running q ops b ∧ t = advance s) ∨
    (s.seq = .idle ∧ t = s) ∨
    (∃ i rest, i.wellFormed = true ∧ s.seq = .idle ∧ Taken i (s.withHost rest) t) := by
  cases hs : s.seq with
  | running q ops b =>
    cases (step_of_running hs).symm.trans h
    exact .inl ⟨q, ops, b, rfl, rfl⟩
  | idle =>
    cases hh : s.host with
    | nil =>
      cases (step_of_no_offer hs hh).symm.trans h
      exact .inr (.inl ⟨rfl, rfl⟩)
    | cons o rest =>
      cases ho : decodeOffer o with
      | error e => simp [step, hs, fetch, hh, ho] at h
      | ok i =>
        cases hw : i.wellFormed with
        | false => simp [step, hs, fetch, hh, ho, hw] at h
        | true =>
          refine .inr (.inr ⟨i, rest, hw, rfl, exec_taken ?_⟩)
          simpa [step, hs, fetch, hh, ho, hw] using h

end Sys2Proof.Safety
end

section
/-! SUPPORT. The state along every step: the invariant, the trace, what is fixed, and what taking an instruction may write (10_state). -/

namespace Sys2Proof.Safety

open Sys2Proof.Machine

/-! ## The invariant -/

section Settling

variable {q : Instr} {b : Option Level} {s : State}

/-- After a poll the request repeats the iteration, gives up or leaves: each finds the lines it needs (42_handshake R170, R173, R177). -/
theorem inv_decidePoll {rest : List Op} (hc : s.constructed = true)
    (hd : duplicatedIds (perLineList s.lineMap) = []) (hsafe : opsSafe s.lines (.pollDecide :: rest) = true) :
    inv (decidePoll q b rest s) = true := by
  obtain ⟨hl, hexit⟩ := opsSafe_pollDecide_iff.mp hsafe
  have hrepeat : opsSafe s.lines (pollIterationOps ++ .pollDecide :: rest) = true :=
    (opsSafe_pollIteration _ hl).mpr hsafe
  have hgiveUp : opsSafe s.lines (handshakeExitOps ++ [.raiseNotResponding]) = true :=
    (opsSafe_handshakeExit _ hl).mpr (linesIdle_of_linesPolling hl)
  have hleave : opsSafe s.lines (handshakeExitOps ++ rest) = true := (opsSafe_handshakeExit _ hl).mpr hexit
  unfold decidePoll
  split
  · split
    · exact (inv_iff_of_running rfl).mpr ⟨hc, rfl, hrepeat, hd⟩
    · dsimp only
      split
      · exact (inv_iff_of_running rfl).mpr ⟨hc, rfl, hgiveUp, hd⟩
      · exact (inv_iff_of_running rfl).mpr ⟨hc, rfl, hrepeat, hd⟩
  · exact (inv_iff_of_running rfl).mpr ⟨hc, rfl, hleave, hd⟩

/-- What remains of a microprogram being safe from the lines, settling ends in a state of the invariant. -/
theorem inv_settle {ops : List Op} (hc : s.constructed = true) (hd : duplicatedIds (perLineList s.lineMap) = [])
    (hsafe : opsSafe s.lines ops = true) : inv (settle q b ops s) = true := by
  induction ops generalizing s with
  | nil => exact (inv_iff_of_idle rfl).mpr fun _ => ⟨hsafe, hd⟩
  | cons op rest ih =>
    cases op with
    | bus p => exact (inv_iff_of_running rfl).mpr ⟨hc, rfl, hsafe, hd⟩
    | geometry cols rows => exact ih (s := s.withGeometry cols rows) hc hd hsafe
    | shadows => exact ih (s := s.withSequenceShadows) hc hd hsafe
    | clearPolls =>
      rw [settle, clearPolls_frame]
      exact ih hc hd hsafe
    | pollDecide => exact inv_decidePoll hc hd hsafe
    | raiseNotResponding => exact (inv_iff_of_idle rfl).mpr fun _ => ⟨hsafe, hd⟩
    | returnOne => exact ih (s := s.withResult (.value 1)) hc hd hsafe

end Settling

theorem perform_set_of_output {l : Line} {v : Level} {s : State} (b : Option Level)
    (h : (PerLine.get s.lines l).dir = .output) :
    perform (.set l v) b s = .ok (b, (s.withLines (setLines l v s.lines)).appendEvent (.set l v)) := by
  simp only [perform, lineSet_of_output h]

theorem perform_get_of_input {l : Line} {s : State} (b : Option Level) (h : (PerLine.get s.lines l).dir = .input) :
    perform (.get l) b s = .ok (some (deviceAnswer s.device s.trace l),
      (s.withDevice (deviceAfter s.device)).appendEvent (.get l (deviceAnswer s.device s.trace l))) := by
  simp only [perform, lineGet_of_input h]

/-- Where the microprogram is safe, its next primitive goes through with its own event and leaves the rest safe (20_memory R61 to R64). -/
theorem perform_of_opsSafe {s : State} {p : Prim} {rest : List Op} (b : Option Level)
    (h : opsSafe s.lines (.bus p :: rest) = true) :
    ∃ b' t ev, perform p b s = .ok (b', t) ∧ isEventOf p ev = true ∧ t.trace = s.trace ++ [ev] ∧
      opsSafe t.lines rest = true := by
  cases p with
  | dir l d => exact ⟨b, lineDir l d s, .dir l d, rfl, by simp [isEventOf], rfl, (opsSafe_dir_iff.mp h).2⟩
  | set l v =>
    obtain ⟨hdir, -, hrest⟩ := opsSafe_set_iff.mp h
    exact ⟨_, _, .set l v, perform_set_of_output b hdir, by simp [isEventOf], rfl, hrest⟩
  | get l =>
    obtain ⟨hdir, hrest⟩ := opsSafe_get_iff.mp h
    refine ⟨_, _, _, perform_get_of_input b hdir, ?_, rfl, hrest⟩
    cases deviceAnswer s.device s.trace l <;> simp [isEventOf]
  | wait us => exact ⟨b, waitUs us s, .wait us, rfl, by simp [isEventOf], rfl, h⟩

/-! ## What is fixed -/

/-- `t` has the configuration of `s`, its CURLINE too unless that is 0 (10_state R23, R24, R32). -/
def SameConfiguration (s t : State) : Prop :=
  t.constructed = s.constructed ∧ t.variant = s.variant ∧ t.lineMap = s.lineMap ∧ t.params = s.params ∧
    (t.curLine = s.curLine ∨ t.curLine = 0)

theorem SameConfiguration.trans {s t u : State} (h1 : SameConfiguration s t) (h2 : SameConfiguration t u) :
    SameConfiguration s u := by
  obtain ⟨hc1, hv1, hm1, hp1, hl1⟩ := h1
  obtain ⟨hc2, hv2, hm2, hp2, hl2⟩ := h2
  refine ⟨hc2.trans hc1, hv2.trans hv1, hm2.trans hm1, hp2.trans hp1, ?_⟩
  obtain hl2 | hl2 := hl2
  · rwa [hl2]
  · exact .inr hl2

theorem sameConfiguration_perform {p : Prim} {b b' : Option Level} {s t : State} (h : perform p b s = .ok (b', t)) :
    SameConfiguration s t := by
  obtain ⟨ev, ht⟩ := perform_ok h
  rw [ht]
  exact ⟨rfl, rfl, rfl, rfl, .inl rfl⟩

theorem settle_curLine (q : Instr) (b : Option Level) (ops : List Op) (s : State) :
    (settle q b ops s).curLine = s.curLine ∨ (settle q b ops s).curLine = 0 := by
  induction ops generalizing s with
  | nil => exact .inl rfl
  | cons op rest ih =>
    cases op with
    | bus p => exact .inl rfl
    | geometry cols rows => exact .inr ((ih (s.withGeometry cols rows)).elim id id)
    | shadows => exact ih s.withSequenceShadows
    | clearPolls =>
      rw [settle, clearPolls_frame]
      exact ih _
    | pollDecide =>
      rw [settle, decidePoll_frame]
      exact .inl rfl
    | raiseNotResponding => exact .inl rfl
    | returnOne => exact ih (s.withResult (.value 1))

theorem sameConfiguration_settle (q : Instr) (b : Option Level) (ops : List Op) (s : State) :
    SameConfiguration s (settle q b ops s) := by
  have hl := settle_curLine q b ops s
  obtain ⟨_, _, _, _, _, _, _, _, _, h⟩ := settle_frame q b ops s
  rw [h] at hl ⊢
  exact ⟨rfl, rfl, rfl, rfl, hl⟩

theorem sameConfiguration_advance (s : State) : SameConfiguration s (advance s) := by
  obtain h | ⟨q, p, rest, b, b', t, -, hp, h⟩ | ⟨q, p, rest, b, f, -, -, h⟩ | ⟨q, ops, b, -, h⟩ := advance_cases s <;>
    rw [h]
  · exact ⟨rfl, rfl, rfl, rfl, .inl rfl⟩
  · exact (sameConfiguration_perform hp).trans (sameConfiguration_settle q b' rest t)
  · exact ⟨rfl, rfl, rfl, rfl, .inl rfl⟩
  · exact sameConfiguration_settle q b ops s

/-! ## The trace and RESULT along the sequencer -/

theorem advance_trace (s : State) : ∃ evs, (advance s).trace = s.trace ++ evs ∧ evs.length ≤ 1 := by
  obtain h | ⟨q, p, rest, b, b', t, -, hp, h⟩ | ⟨q, p, rest, b, f, -, -, h⟩ | ⟨q, ops, b, -, h⟩ := advance_cases s <;>
    rw [h]
  · exact ⟨[], by simp⟩
  · obtain ⟨ev, ht, -⟩ := perform_lines hp
    exact ⟨[ev], by rw [settle_trace, ht], le_rfl⟩
  · exact ⟨[], by simp [endWithRecord]⟩
  · exact ⟨[], by simp [settle_trace]⟩

/-- The only value a statement returns is WRITE's 1 (41_transfer R154). -/
theorem settle_result_value {q : Instr} {b : Option Level} {ops : List Op} {s : State} {v : Byte}
    (h : (settle q b ops s).result = .value v) : s.result = .value v ∨ v = 1 := by
  induction ops generalizing s with
  | nil => exact .inl h
  | cons op rest ih =>
    cases op with
    | bus p => exact .inl h
    | geometry cols rows => exact ih (s := s.withGeometry cols rows) h
    | shadows => exact ih (s := s.withSequenceShadows) h
    | clearPolls =>
      rw [settle, clearPolls_frame] at h
      exact ih (s := { s with polls := (clearPolls s).polls }) h
    | pollDecide =>
      rw [settle, decidePoll_frame] at h
      exact .inl h
    | raiseNotResponding => cases h
    | returnOne =>
      obtain h1 | hv := ih (s := s.withResult (.value 1)) h
      · cases h1
        exact .inr rfl
      · exact .inr hv

theorem advance_result_value {s : State} {v : Byte} (hv : (advance s).result = .value v) :
    s.result = .value v ∨ v = 1 := by
  obtain h | ⟨q, p, rest, b, b', t, -, hp, h⟩ | ⟨q, p, rest, b, f, -, -, h⟩ | ⟨q, ops, b, -, h⟩ := advance_cases s <;>
    rw [h] at hv
  · exact .inl hv
  · obtain ⟨ev, ht⟩ := perform_ok hp
    have hr : t.result = s.result := by rw [ht]
    exact hr ▸ settle_result_value hv
  · exact .inl hv
  · exact settle_result_value hv

/-! ## What each register becomes when an instruction is taken -/

section Taking

variable {i : Instr} {s t : State} (h : Taken i s t)

include h

theorem Taken.dispctl : t.dispctl = s.dispctl ∨ i ∈ displayRequests := by
  cases h with
  | sendsDispctl d v hs hc hi => exact .inr hi
  | _ => exact .inl rfl

theorem Taken.entry : t.entry = s.entry ∨ i ∈ entryRequests := by
  cases h with
  | sendsEntry x v hs hc hi => exact .inr hi
  | _ => exact .inl rfl

theorem Taken.geometry :
    (t.numCols = s.numCols ∧ t.numLines = s.numLines ∧ t.curLine = s.curLine) ∨
      (∃ ver rs rw e d0 d1 d2 d3, i = .construct ver rs rw e d0 d1 d2 d3) ∨
      (∃ cols rows, i = .beginInit cols rows ∨ i = .powerOnSequence cols rows) := by
  cases h with
  | sequence cols rows hs hc hi => exact .inr (.inr ⟨cols, rows, hi⟩)
  | constructs ver rs rw e d0 d1 d2 d3 hs hc hids hi => exact .inr (.inl ⟨ver, rs, rw, e, d0, d1, d2, d3, hi⟩)
  | sequenceInPlace cols rows q rest b hs hi => exact .inr (.inr ⟨cols, rows, .inr hi⟩)
  | _ => exact .inl ⟨rfl, rfl, rfl⟩

/-- Only CONSTRUCT accepted, which finds the block unbuilt, writes what identifies the block, its lines and its trace. -/
theorem Taken.block :
    (t.constructed = s.constructed ∧ t.variant = s.variant ∧ t.lineMap = s.lineMap ∧ t.lines = s.lines ∧
        t.trace = s.trace) ∨
      (s.constructed = false ∧ ∃ ver rs rw e d0 d1 d2 d3, i = .construct ver rs rw e d0 d1 d2 d3) := by
  cases h with
  | constructs ver rs rw e d0 d1 d2 d3 hs hc hids hi => exact .inr ⟨hc, ver, rs, rw, e, d0, d1, d2, d3, hi⟩
  | _ => exact .inl ⟨rfl, rfl, rfl, rfl, rfl⟩

theorem Taken.block_of_constructed (hc : s.constructed = true) :
    t.constructed = s.constructed ∧ t.variant = s.variant ∧ t.lineMap = s.lineMap ∧ t.lines = s.lines ∧
      t.trace = s.trace := by
  obtain hsame | ⟨hc', -⟩ := h.block
  · exact hsame
  · cases hc.symm.trans hc'

theorem Taken.curLine : t.curLine = s.curLine ∨ t.curLine = 0 := by
  cases h with
  | sequence => exact .inr rfl
  | constructs => exact .inr rfl
  | sequenceInPlace => exact .inr rfl
  | _ => exact .inl rfl

theorem Taken.frame :
    t.func = s.func ∧ t.polls = s.polls ∧ t.params = s.params ∧ t.device = s.device ∧ t.host = s.host := by
  cases h <;> exact ⟨rfl, rfl, rfl, rfl, rfl⟩

theorem Taken.result : t.result = s.result ∨ t.result = .empty := by
  cases h with
  | waits => exact .inl rfl
  | recorded => exact .inl rfl
  | inPlace => exact .inl rfl
  | sequenceInPlace => exact .inl rfl
  | _ => exact .inr rfl

theorem Taken.records : t.records = s.records ∨ ∃ r : Record, t.records = s.records ++ [r] := by
  cases h with
  | recorded r hs => exact .inr ⟨r, rfl⟩
  | _ => exact .inl rfl

theorem Taken.sameConfiguration (hc : s.constructed = true) : SameConfiguration s t := by
  obtain ⟨hbuilt, hvariant, hmap, -, -⟩ := h.block_of_constructed hc
  obtain ⟨-, -, hparams, -, -⟩ := h.frame
  exact ⟨hbuilt, hvariant, hmap, hparams, h.curLine⟩

/-- Taking a host request keeps the invariant: its microprogram is safe from idle lines, and CONSTRUCT's from unconfigured ones. -/
theorem Taken.keeps_inv (hw : i.wellFormed = true) (hinv : inv s = true) : inv t = true := by
  cases h with
  | waits => exact hinv
  | recorded r hs => exact (inv_iff_of_idle rfl).mpr ((inv_iff_of_idle hs).mp hinv)
  | sends ops hs hc hat hidle =>
    obtain ⟨hl, hd⟩ := (inv_iff_of_idle hs).mp hinv hc
    exact (inv_iff_of_running rfl).mpr ⟨hc, hat, hidle.safe hl, hd⟩
  | sendsDispctl d v hs hc hi =>
    obtain ⟨hl, hd⟩ := (inv_iff_of_idle hs).mp hinv hc
    exact (inv_iff_of_running rfl).mpr ⟨hc, rfl, (keepsIdle_send v .low).safe hl, hd⟩
  | sendsEntry x v hs hc hi =>
    obtain ⟨hl, hd⟩ := (inv_iff_of_idle hs).mp hinv hc
    exact (inv_iff_of_running rfl).mpr ⟨hc, rfl, (keepsIdle_send v .low).safe hl, hd⟩
  | sequence cols rows hs hc hi =>
    obtain ⟨hl, hd⟩ := (inv_iff_of_idle hs).mp hinv hc
    exact (inv_iff_of_running rfl).mpr ⟨hc, rfl, opsSafe_sequence s.variant (e_ne_high_of_linesIdle hl), hd⟩
  | constructs ver rs rw e d0 d1 d2 d3 hs hc hids hi =>
    exact (inv_iff_of_running rfl).mpr
      ⟨rfl, rfl, opsSafe_sequence _ (show unconfiguredLines.e.lvl ≠ .high by decide), duplicatedIds_eq_nil_iff.mpr hids⟩
  | inPlace q ops rest b hs hi => cases hw.symm.trans hi
  | sequenceInPlace cols rows q rest b hs hi =>
    subst hi
    cases hw

end Taking

/-! ## The obligations -/

/-- A running block that meets the invariant performs its next event, and the rest of its microprogram is safe. -/
theorem advance_of_inv {s : State} {q : Instr} {p : Prim} {rest : List Op} {b : Option Level} (hinv : inv s = true)
    (hs : s.seq = .running q (.bus p :: rest) b) :
    ∃ b' t ev, perform p b s = .ok (b', t) ∧ isEventOf p ev = true ∧ t.trace = s.trace ++ [ev] ∧
      opsSafe t.lines rest = true ∧ advance s = settle q b' rest t := by
  obtain ⟨-, -, hsafe, -⟩ := (inv_iff_of_running hs).mp hinv
  obtain ⟨b', t, ev, hp, hev, htrace, hrest⟩ := perform_of_opsSafe b hsafe
  exact ⟨b', t, ev, hp, hev, htrace, hrest, advance_bus hs hp⟩

theorem inv_advance {s : State} {q : Instr} {ops : List Op} {b : Option Level} (hinv : inv s = true)
    (hs : s.seq = .running q ops b) : inv (advance s) = true := by
  obtain ⟨hc, hat, -, hd⟩ := (inv_iff_of_running hs).mp hinv
  obtain ⟨p, rest, rfl⟩ := atEvent_iff.mp hat
  obtain ⟨b', t, -, hp, -, -, hrest, ht⟩ := advance_of_inv hinv hs
  obtain ⟨hbuilt, -, hmap, -⟩ := sameConfiguration_perform hp
  rw [ht]
  exact inv_settle (hbuilt.trans hc) (by rw [hmap, hd]) hrest

/-- Settles O25: by what a step can do; a running request keeps to the safe rest of its microprogram, and an accepted one starts at a
microprogram that is safe from the lines it finds. -/
theorem invariantIsKept : Obligations.InvariantIsKept := by
  intro s t hinv h
  obtain ⟨q, ops, b, hs, rfl⟩ | ⟨-, rfl⟩ | ⟨i, rest, hw, -, htaken⟩ := step_cases h
  · exact inv_advance hinv hs
  · exact hinv
  · exact htaken.keeps_inv hw hinv

/-- Settles O3: the invariant lets the primitive go through, and settling writes neither the trace nor the records nor the host's list. -/
theorem runningStepPerformsOneEvent : Obligations.RunningStepPerformsOneEvent := by
  intro s q p rest b hinv hs
  obtain ⟨b', t, ev, hp, hev, htrace, -, ht⟩ := advance_of_inv hinv hs
  obtain ⟨_, hframe⟩ := perform_ok hp
  have hrecords : t.records = s.records := by rw [hframe]
  have hhost : t.host = s.host := by rw [hframe]
  obtain ⟨_, _, _, _, _, _, _, _, _, hsettle⟩ := settle_frame q b' rest t
  refine ⟨_, ev, step_of_running hs, hev, ?_⟩
  rw [ht, hsettle]
  exact ⟨htrace, hrecords, hhost⟩

/-- Settles O4: an event of the sequencer is the only thing appended; an accepted request appends none. -/
theorem traceIsAppendOnly : Obligations.TraceIsAppendOnly := by
  intro s t hc h
  obtain ⟨q, ops, b, -, rfl⟩ | ⟨-, rfl⟩ | ⟨i, rest, -, -, htaken⟩ := step_cases h
  · exact advance_trace s
  · exact ⟨[], by simp⟩
  · obtain ⟨-, -, -, -, htrace⟩ := htaken.block_of_constructed hc
    exact ⟨[], by simpa using htrace⟩

/-- Settles O6: neither the sequencer nor a request taken on a built block writes the configuration. -/
theorem configurationIsFixed : Obligations.ConfigurationIsFixed := by
  intro s t hc h
  have hsame : SameConfiguration s t := by
    obtain ⟨q, ops, b, -, rfl⟩ | ⟨-, rfl⟩ | ⟨i, rest, -, -, htaken⟩ := step_cases h
    · exact sameConfiguration_advance s
    · exact ⟨rfl, rfl, rfl, rfl, .inl rfl⟩
    · exact htaken.sameConfiguration hc
  obtain ⟨hbuilt, hrest⟩ := hsame
  exact ⟨hbuilt.trans hc, hrest⟩

/-- Settles O9: register by register over what taking an instruction can do. -/
theorem takingChangesOnlyItsOwnRegisters : Obligations.TakingChangesOnlyItsOwnRegisters := by
  intro i s t h
  have htaken := exec_taken h
  obtain ⟨hfunc, hpolls, hparams, hdevice, hhost⟩ := htaken.frame
  exact ⟨htaken.dispctl, htaken.entry, htaken.geometry, htaken.block.imp_right And.right, hfunc, hpolls, hparams, hdevice,
    hhost, htaken.result, htaken.records⟩

/-- Settles O28: the sequencer returns only 1, and taking a request returns nothing. -/
theorem onlyOneIsReturned : Obligations.OnlyOneIsReturned := by
  intro s t v h hv
  obtain ⟨q, ops, b, -, rfl⟩ | ⟨-, rfl⟩ | ⟨i, rest, -, -, htaken⟩ := step_cases h
  · exact advance_result_value hv
  · exact .inl hv
  · obtain hr | hr := htaken.result
    · exact .inl (hr.symm.trans hv)
    · cases hr.symm.trans hv

/-- Settles O10: role by role, each line of the reset state is unconfigured. -/
theorem resetState : Obligations.ResetState := by
  refine ⟨rfl, rfl, rfl, rfl, rfl, fun l => ?_⟩
  cases l <;> rfl

/-- Settles O15: the sequence that follows the latched state starts at `Dir(RS, Output)`. -/
theorem constructIsAccepted : Obligations.ConstructIsAccepted := by
  intro s ver rs rw e d0 d1 d2 d3 hs hc hids
  exact ⟨_, execConstruct_of_nodup ver rs rw e d0 d1 d2 d3 hs hc hids⟩

/-- Settles O24: an unbuilt idle block meets the invariant. -/
theorem invariantHoldsAtReset : Obligations.InvariantHoldsAtReset :=
  (inv_iff_of_idle rfl).mpr fun hc => nomatch hc

end Sys2Proof.Safety
end

section
/-! SUPPORT. The four primitives as steps of the running request, the two faults on a line, and that the invariant keeps clear of them
(20_memory R61 to R64; 60_exceptions R242). -/

namespace Sys2Proof.Safety

open Sys2Proof.Machine

/-! ## A primitive on a line of the wrong direction -/

theorem perform_set_of_not_output {l : Line} {v : Level} {s : State} (b : Option Level)
    (h : (PerLine.get s.lines l).dir ≠ .output) : perform (.set l v) b s = .error (.lineNotOutput l) := by
  simp only [perform, lineSet, if_neg h]

theorem perform_get_of_not_input {l : Line} {s : State} (b : Option Level) (h : (PerLine.get s.lines l).dir ≠ .input) :
    perform (.get l) b s = .error (.lineNotInput l) := by
  simp only [perform, lineGet, if_neg h]

/-! ## The step of a running request at an event -/

section AtEvent

variable {s t : State} {q : Instr} {p : Prim} {rest : List Op} {b b' : Option Level}

theorem step_of_perform_ok (hs : s.seq = .running q (.bus p :: rest) b) (hp : perform p b s = .ok (b', t)) :
    step s = .next (settle q b' rest t) := by
  rw [step_of_running hs, advance_bus hs hp]

theorem step_of_perform_error {f : Fault} (hs : s.seq = .running q (.bus p :: rest) b) (hp : perform p b s = .error f) :
    step s = .next (endWithRecord (.fault f) s) := by
  rw [step_of_running hs]
  simp [advance, hs, hp]

end AtEvent

/-! ## The four primitives -/

theorem dirLines_same_lvl (l : Line) (d : Dir) (c : PerLine LineState) :
    (PerLine.get (dirLines l d c) l).lvl =
      if d = .output ∧ (PerLine.get c l).dir ≠ .output then .unknown else (PerLine.get c l).lvl := by
  simp [dirLines]

/-- Settles O20: the rules of `dirLines`, line by line. -/
theorem lineDirRule : Obligations.LineDirRule := by
  intro s l d
  refine ⟨dirLines_same_dir l d s.lines, fun hout hturn => ?_, fun hkeep => ?_,
    fun l' hl => dirLines_other l l' d s.lines hl, rfl⟩
  · exact (dirLines_same_lvl l d s.lines).trans (if_pos ⟨hout, hturn⟩)
  · refine (dirLines_same_lvl l d s.lines).trans (if_neg ?_)
    rintro ⟨hout, hturn⟩
    obtain hin | hdir := hkeep
    · cases hout.symm.trans hin
    · exact hturn hdir

/-- Settles O21: on an output the step goes through with `setLines`, on any other line it ends with the fault. -/
theorem lineSetRule : Obligations.LineSetRule := by
  intro s q l v rest b hs
  refine ⟨fun hdir => ⟨setLines l v s.lines, ?_, fun l' hl => setLines_other l l' v s.lines hl, ?_⟩, fun hdir => ?_⟩
  · rw [setLines_same, hdir]
  · exact step_of_perform_ok hs (perform_set_of_output b hdir)
  · exact step_of_perform_error hs (perform_set_of_not_output b hdir)

/-- Settles O22: the level taken is the device's answer, a scripted one, the stuck one or the free value. -/
theorem lineGetRule : Obligations.LineGetRule := by
  intro s q l rest b hs
  refine ⟨fun hdir => ⟨deviceAnswer s.device s.trace l, fun w ws hd => ?_, fun w hd => ?_, ?_⟩, fun hdir => ?_⟩
  · rw [hd, deviceAnswer]
  · rw [hd, deviceAnswer]
  · rw [step_of_perform_ok hs (perform_get_of_input b hdir)]
    rcases s.device with (_ | ⟨w, ws⟩) | w <;> rfl
  · exact step_of_perform_error hs (perform_get_of_not_input b hdir)

/-- Settles O23: a wait goes through on every line state; of the statements only the poll decision has a condition. -/
theorem waitRule : Obligations.WaitRule := by
  refine ⟨fun s q us rest b hs => step_of_perform_ok hs rfl, fun s q rest b =>
    ⟨rfl, fun p => rfl, fun cols rows => rfl, rfl, ?_, ?_, ?_, ?_, ?_, ?_, rfl, rfl⟩⟩
  · intro hlim
    rw [settle, clearPolls, hlim]
  · intro k hlim
    rw [settle, clearPolls, hlim]
    rfl
  · intro hb
    rw [settle, decidePoll, if_neg hb]
    rfl
  · intro hb hlim
    rw [settle, decidePoll, if_pos hb, hlim]
    rfl
  · intro k hb hlim hk
    rw [settle, decidePoll, if_pos hb, hlim]
    exact if_neg hk
  · intro k hb hlim hk
    rw [settle, decidePoll, if_pos hb, hlim]
    subst hk
    exact if_pos rfl

/-! ## Which faults taking an instruction records -/

/-- `t` has no fault recorded that `s` has not, unless it is SET_CURSOR's (43_command_surface R192). -/
def AddsNoLineFault (s t : State) : Prop :=
  ∀ f : Fault, .fault f ∈ t.records → .fault f ∈ s.records ∨ ∃ row, f = .rowOffsetOutOfTable row

theorem addsNoLineFault_of_records {s t : State} (h : t.records = s.records) : AddsNoLineFault s t :=
  fun _ hf => .inl (h ▸ hf)

theorem addsNoLineFault_start (q : Instr) (ops : List Op) (s : State) : AddsNoLineFault s (start q ops s) :=
  addsNoLineFault_of_records (settle_records q none ops _)

theorem addsNoLineFault_refusal (r : Refusal) (s : State) : AddsNoLineFault s (endWithRecord (.refusal r) s) :=
  fun _ hf => .inl (by simpa [endWithRecord] using hf)

theorem addsNoLineFault_rowFault (row : Byte) (s : State) :
    AddsNoLineFault s (endWithRecord (.fault (.rowOffsetOutOfTable row)) s) :=
  fun f hf => by
    have hcases : .fault f ∈ s.records ∨ f = .rowOffsetOutOfTable row := by simpa [endWithRecord] using hf
    exact hcases.imp_right fun h => ⟨row, h⟩

/-- The outcome is a next state, and one without a new fault on a line. -/
def GoesOn (s : State) (o : Host.Outcome State Fault Refusal) : Prop := ∃ t, o = .next t ∧ AddsNoLineFault s t

theorem goesOn_takeRequest (i : Instr) {body : State → State} {s : State} (h : AddsNoLineFault s (body s)) :
    GoesOn s (takeRequest i body s) := by
  obtain ⟨q, ops, b, -, hr⟩ | ⟨-, -, hr⟩ | ⟨-, -, hr⟩ := takeRequest_cases (i := i) (body := body) (s := s)
  · exact ⟨s, hr, addsNoLineFault_of_records rfl⟩
  · exact ⟨_, hr, addsNoLineFault_refusal _ s⟩
  · exact ⟨_, hr, h⟩

theorem goesOn_start (i : Instr) (ops : List Op) (s : State) : GoesOn s (takeRequest i (start i ops) s) :=
  goesOn_takeRequest i (addsNoLineFault_start i ops s)

theorem goesOn_sendCommand (i : Instr) {upd : State → State} (v : Byte) {s : State}
    (h : (upd s).records = s.records) : GoesOn s (sendCommand i upd v s) :=
  goesOn_takeRequest i (addsNoLineFault_of_records ((settle_records i none _ _).trans h))

theorem goesOn_runProcedure (i : Instr) (ops : List Op) (s : State) : GoesOn s (runProcedure i ops s) := by
  cases hs : s.seq with
  | idle =>
    have hr : runProcedure i ops s = takeRequest i (start i ops) s := by rw [runProcedure, hs]
    rw [hr]
    exact goesOn_start i ops s
  | running q rest b =>
    exact ⟨_, runProcedure_of_running hs, addsNoLineFault_of_records (settle_records q b _ s)⟩

theorem goesOn_setCursor (col row : Byte) (s : State) : GoesOn s (execSetCursor col row s) := by
  refine goesOn_takeRequest _ ?_
  cases ddramCmd s.numLines col row with
  | none => exact addsNoLineFault_rowFault row s
  | some v => exact addsNoLineFault_start _ _ s

theorem goesOn_construct (ver : Byte) (rs rw e d0 d1 d2 d3 : LineId) (s : State) :
    GoesOn s (execConstruct ver rs rw e d0 d1 d2 d3 s) := by
  unfold execConstruct
  split
  · exact ⟨s, rfl, addsNoLineFault_of_records rfl⟩
  · split
    · exact ⟨_, rfl, addsNoLineFault_refusal _ s⟩
    · split
      · exact ⟨_, rfl, addsNoLineFault_refusal _ s⟩
      · exact ⟨_, rfl, addsNoLineFault_of_records (settle_records _ none _ _)⟩

/-- Taking an instruction always answers a next state, with no new fault on a line: before its first event only a refusal or SET_CURSOR's
row fault is recorded. -/
theorem goesOn_exec (i : Instr) (s : State) : GoesOn s (exec i s) := by
  cases i with
  | construct ver rs rw e d0 d1 d2 d3 => exact goesOn_construct ver rs rw e d0 d1 d2 d3 s
  | beginInit cols rows => exact goesOn_takeRequest _ (addsNoLineFault_start _ _ s)
  | command v => exact goesOn_sendCommand _ v rfl
  | write v => exact goesOn_start _ _ s
  | clear => exact goesOn_sendCommand _ _ rfl
  | home => exact goesOn_sendCommand _ _ rfl
  | setCursor col row => exact goesOn_setCursor col row s
  | display => exact goesOn_sendCommand _ _ rfl
  | noDisplay => exact goesOn_sendCommand _ _ rfl
  | cursor => exact goesOn_sendCommand _ _ rfl
  | noCursor => exact goesOn_sendCommand _ _ rfl
  | blink => exact goesOn_sendCommand _ _ rfl
  | noBlink => exact goesOn_sendCommand _ _ rfl
  | scrollDisplayLeft => exact goesOn_sendCommand _ _ rfl
  | scrollDisplayRight => exact goesOn_sendCommand _ _ rfl
  | leftToRight => exact goesOn_sendCommand _ _ rfl
  | rightToLeft => exact goesOn_sendCommand _ _ rfl
  | autoscroll => exact goesOn_sendCommand _ _ rfl
  | noAutoscroll => exact goesOn_sendCommand _ _ rfl
  | createChar slot bitmap => exact goesOn_start _ _ s
  | write4bits n => exact goesOn_runProcedure _ _ s
  | pulseEnable => exact goesOn_runProcedure _ _ s
  | send v mode => exact goesOn_runProcedure _ _ s
  | waitForReady => exact goesOn_runProcedure _ _ s
  | powerOnSequence cols rows => exact goesOn_runProcedure _ _ s

/-! ## Every step -/

/-- Under the invariant the running request's step records nothing. -/
theorem advance_records_of_inv {s : State} {q : Instr} {ops : List Op} {b : Option Level} (hinv : inv s = true)
    (hs : s.seq = .running q ops b) : (advance s).records = s.records := by
  obtain ⟨-, hat, -, -⟩ := (inv_iff_of_running hs).mp hinv
  obtain ⟨p, rest, rfl⟩ := atEvent_iff.mp hat
  obtain ⟨t, -, ht, -, -, hrecords, -⟩ := runningStepPerformsOneEvent s q p rest b hinv hs
  cases (step_of_running hs).symm.trans ht
  exact hrecords

/-- What a step of an idle block can answer. -/
theorem step_of_idle {s : State} (hs : s.seq = .idle) :
    step s = .next s ∨ (∃ r, step s = .refused r) ∨ ∃ i rest, step s = exec i (s.withHost rest) := by
  cases hh : s.host with
  | nil => exact .inl (step_of_no_offer hs hh)
  | cons o rest =>
    cases ho : decodeOffer o with
    | error e => exact .inr (.inl ⟨.badOffer e, by simp [step, hs, fetch, hh, ho]⟩)
    | ok i =>
      cases hw : i.wellFormed with
      | false => exact .inr (.inl ⟨.notARequest i, by simp [step, hs, fetch, hh, ho, hw]⟩)
      | true => exact .inr (.inr ⟨i, rest, by simp [step, hs, fetch, hh, ho, hw]⟩)

theorem addsNoLineFault_step {s t : State} (hinv : inv s = true) (h : step s = .next t) : AddsNoLineFault s t := by
  cases hs : s.seq with
  | running q ops b =>
    cases (step_of_running hs).symm.trans h
    exact addsNoLineFault_of_records (advance_records_of_inv hinv hs)
  | idle =>
    obtain hstep | ⟨r, hstep⟩ | ⟨i, rest, hstep⟩ := step_of_idle hs
    · cases hstep.symm.trans h
      exact addsNoLineFault_of_records rfl
    · cases hstep.symm.trans h
    · obtain ⟨u, hu, hfaults⟩ := goesOn_exec i (s.withHost rest)
      cases (hu.symm.trans hstep.symm).trans h
      exact hfaults

theorem step_ne_fault (s : State) (f : Fault) : step s ≠ .fault f := by
  intro h
  cases hs : s.seq with
  | running q ops b => cases (step_of_running hs).symm.trans h
  | idle =>
    obtain hstep | ⟨r, hstep⟩ | ⟨i, rest, hstep⟩ := step_of_idle hs
    · cases hstep.symm.trans h
    · cases hstep.symm.trans h
    · obtain ⟨u, hu, -⟩ := goesOn_exec i (s.withHost rest)
      cases (hu.symm.trans hstep.symm).trans h

/-- Settles O26: a fault that a step adds is SET_CURSOR's, and that is neither of the two. -/
theorem noStepFaultsOnALine : Obligations.NoStepFaultsOnALine := by
  refine ⟨fun s t hinv h l => ⟨fun hf => ?_, fun hf => ?_⟩, step_ne_fault⟩
  · exact (addsNoLineFault_step hinv h _ hf).resolve_right fun ⟨_, hrow⟩ => nomatch hrow
  · exact (addsNoLineFault_step hinv h _ hf).resolve_right fun ⟨_, hrow⟩ => nomatch hrow

end Sys2Proof.Safety
end

section
/-! SUPPORT. Conformance of traces: each of R82's three changes, and so a conforming trace, shows the device the same and takes no less
time (20_memory R82). -/

namespace Sys2Proof.Safety

open Sys2Proof.Machine

/-! ## One event -/

theorem perLine_put_get {α : Type} (p : PerLine α) (l : Line) : PerLine.put p l (PerLine.get p l) = p := by
  cases l <;> rfl

theorem samples_cons (ev : Event) (t : List Event) : samples (ev :: t) = samples [ev] ++ samples t :=
  samples_append [ev] t

theorem minTime_cons (ev : Event) (t : List Event) : minTime (ev :: t) = minTime [ev] + minTime t :=
  minTime_append [ev] t

/-- Only an event on E ends a strobe. -/
theorem strobeOf_of_not_isEEvent {c : PerLine LineState} {ev : Event} (h : isEEvent ev = false) : strobeOf c ev = none := by
  unfold strobeOf
  split
  · cases h
  · rfl

theorem strobes_of_no_isEEvent {c : PerLine LineState} {t : List Event} (h : ∀ ev ∈ t, isEEvent ev = false) :
    strobes c t = [] := by
  induction t generalizing c with
  | nil => rfl
  | cons ev t ih =>
    rw [List.forall_mem_cons] at h
    obtain ⟨hev, ht⟩ := h
    simp [strobes, strobeOf_of_not_isEEvent hev, ih ht]

section Redundant

variable {c : PerLine LineState} {ev : Event} (h : redundant c ev = true)

include h

theorem applyEvent_of_redundant : applyEvent c ev = c := by
  cases ev with
  | dir l d =>
    have hdir : (PerLine.get c l).dir = dirState d := by simpa [redundant] using h
    have hlvl : ¬ (d = .output ∧ (PerLine.get c l).dir ≠ .output) := by
      rintro ⟨rfl, hne⟩
      exact hne hdir
    rw [applyEvent, dirLines, if_neg hlvl, ← hdir]
    exact perLine_put_get c l
  | set l v =>
    obtain ⟨-, hlvl⟩ : (PerLine.get c l).dir = .output ∧ (PerLine.get c l).lvl = driveLevel v := by
      simpa [redundant] using h
    rw [applyEvent, setLines, ← hlvl]
    exact perLine_put_get c l
  | get l v => rfl
  | wait us => rfl

/-- E set Low where it is Low already ends no pulse. -/
theorem strobeOf_of_redundant : strobeOf c ev = none := by
  unfold strobeOf
  split
  · have hlow : c.e.lvl = .low := by
      simp only [redundant, Bool.and_eq_true, beq_iff_eq] at h
      exact h.2
    rw [if_neg (by simp [hlow])]
  · rfl

theorem samples_of_redundant : samples [ev] = [] := by
  cases ev with
  | get l v => cases h
  | _ => rfl

theorem minTime_of_redundant : minTime [ev] = 0 := by
  cases ev with
  | wait us => cases h
  | _ => rfl

end Redundant

/-! ## The places of a trace fix its samples and its time -/

theorem samples_of_isDataSet {ev : Event} (h : isDataSet ev = true) : samples [ev] = [] := by
  cases ev with
  | get l v => cases h
  | _ => rfl

theorem minTime_of_isDataSet {ev : Event} (h : isDataSet ev = true) : minTime [ev] = 0 := by
  cases ev with
  | wait us => cases h
  | _ => rfl

theorem reduceOption_places_cons (ev : Event) (t : List Event) :
    (places (ev :: t)).reduceOption =
      if isDataSet ev then (places t).reduceOption else ev :: (places t).reduceOption := by
  cases hd : isDataSet ev <;> simp [places, hd]

/-- Leaving out the data-line `Set`s leaves out no sample. -/
theorem samples_reduceOption_places (t : List Event) : samples (places t).reduceOption = samples t := by
  induction t with
  | nil => rfl
  | cons ev t ih =>
    rw [reduceOption_places_cons, samples_cons ev t]
    cases hd : isDataSet ev with
    | true => rw [if_pos rfl, ih, samples_of_isDataSet hd, List.nil_append]
    | false => rw [if_neg Bool.false_ne_true, samples_cons, ih]

/-- Leaving out the data-line `Set`s leaves out no wait. -/
theorem minTime_reduceOption_places (t : List Event) : minTime (places t).reduceOption = minTime t := by
  induction t with
  | nil => rfl
  | cons ev t ih =>
    rw [reduceOption_places_cons, minTime_cons ev t]
    cases hd : isDataSet ev with
    | true => rw [if_pos rfl, ih, minTime_of_isDataSet hd, Nat.zero_add]
    | false => rw [if_neg Bool.false_ne_true, minTime_cons, ih]

/-! ## Traces an observer cannot tell apart -/

/-- From the line state `c` the device and the host see the same of `t` and `u`, and `u` is no faster. -/
structure SeenAlike (c : PerLine LineState) (t u : List Event) : Prop where
  samples_eq : samples t = samples u
  strobes_eq : strobes c t = strobes c u
  lines_eq : linesAfter c t = linesAfter c u
  time_le : minTime t ≤ minTime u

namespace SeenAlike

variable {c : PerLine LineState}

theorem refl (t : List Event) : SeenAlike c t t := ⟨rfl, rfl, rfl, le_rfl⟩

theorem trans {t u v : List Event} (h1 : SeenAlike c t u) (h2 : SeenAlike c u v) : SeenAlike c t v :=
  ⟨h1.samples_eq.trans h2.samples_eq, h1.strobes_eq.trans h2.strobes_eq, h1.lines_eq.trans h2.lines_eq,
    h1.time_le.trans h2.time_le⟩

/-- A change seen alike stays so between any two pieces of trace. -/
theorem inContext (pre post : List Event) {x y : List Event} (h : SeenAlike (linesAfter c pre) x y) :
    SeenAlike c (pre ++ x ++ post) (pre ++ y ++ post) where
  samples_eq := by simp only [samples_append, h.samples_eq]
  strobes_eq := by simp only [strobes_append, linesAfter_append, h.strobes_eq, h.lines_eq]
  lines_eq := by simp only [linesAfter_append, h.lines_eq]
  time_le := by
    have := h.time_le
    simp only [minTime_append]
    omega

theorem insertRedundant {ev : Event} (h : redundant c ev = true) : SeenAlike c [] [ev] where
  samples_eq := (samples_of_redundant h).symm
  strobes_eq := by simp [strobes, strobeOf_of_redundant h]
  lines_eq := (applyEvent_of_redundant h).symm
  time_le := Nat.zero_le _

theorem deleteRedundant {ev : Event} (h : redundant c ev = true) : SeenAlike c [ev] [] where
  samples_eq := samples_of_redundant h
  strobes_eq := by simp [strobes, strobeOf_of_redundant h]
  lines_eq := applyEvent_of_redundant h
  time_le := (minTime_of_redundant h).le

/-- Data-line `Set`s in another order: the places fix samples and waits, and without an event on E there is no strobe. -/
theorem reorderData {t u : List Event} (he : t.all (fun ev => !isEEvent ev) = true) (hperm : t.Perm u)
    (hplaces : places t = places u) (hlines : linesAfter c t = linesAfter c u) : SeenAlike c t u where
  samples_eq := by rw [← samples_reduceOption_places t, hplaces, samples_reduceOption_places]
  strobes_eq := by
    have ht : ∀ ev ∈ t, isEEvent ev = false := by simpa using he
    have hu : ∀ ev ∈ u, isEEvent ev = false := fun ev hev => ht ev (hperm.mem_iff.mpr hev)
    rw [strobes_of_no_isEEvent ht, strobes_of_no_isEEvent hu]
  lines_eq := hlines
  time_le := by rw [← minTime_reduceOption_places t, hplaces, minTime_reduceOption_places]

theorem raiseWait {us us' : Nat} (h : us ≤ us') : SeenAlike c [.wait us] [.wait us'] :=
  ⟨rfl, rfl, rfl, h⟩

theorem addWait (us : Nat) : SeenAlike c [] [.wait us] := ⟨rfl, rfl, rfl, Nat.zero_le us⟩

end SeenAlike

/-- A conforming trace is seen alike: each of R82's changes is, where it is made. -/
theorem Conforms.seenAlike {c : PerLine LineState} {t u : List Event} (h : Conforms c t u) : SeenAlike c t u := by
  induction h with
  | refl t => exact .refl t
  | trans _ _ ih1 ih2 => exact ih1.trans ih2
  | insertRedundant pre post ev hr => simpa using (SeenAlike.insertRedundant hr).inContext pre post
  | deleteRedundant pre post ev hr => simpa using (SeenAlike.deleteRedundant hr).inContext pre post
  | reorderData pre x y post _ he hperm hplaces hlines =>
    exact (SeenAlike.reorderData he hperm hplaces hlines).inContext pre post
  | raiseWait pre post us us' hle => simpa using (SeenAlike.raiseWait hle).inContext pre post
  | addWait pre post us => simpa using (SeenAlike.addWait us).inContext pre post

/-- Settles O55: conforming traces are seen alike. -/
theorem conformingTracesSampleAlike : Obligations.ConformingTracesSampleAlike :=
  fun _ _ _ h => h.seenAlike.samples_eq

/-- Settles O56: conforming traces are seen alike. -/
theorem conformingTracesStrobeAlike : Obligations.ConformingTracesStrobeAlike :=
  fun _ _ _ h => ⟨h.seenAlike.strobes_eq, h.seenAlike.lines_eq⟩

/-- Settles O57: conforming traces are seen alike, the second no faster. -/
theorem conformingTracesAreNoFaster : Obligations.ConformingTracesAreNoFaster :=
  fun _ _ _ h => h.seenAlike.time_le

end Sys2Proof.Safety
end

section
/-! SUPPORT. Where the bytes of a glyph go on the device (20_memory R73, R75). -/

namespace Sys2Proof.Safety

open Sys2Proof.Machine

@[simp] theorem busWordByte_busWord (m : Level) (v : Byte) : busWordByte (busWord m v) = v := by
  unfold busWordByte busWord
  exact BitVec.extractLsb'_append_eq_right

@[simp] theorem busWordMode_busWord (m : Level) (v : Byte) : busWordMode (busWord m v) = m := by
  unfold busWordMode busWord
  rw [BitVec.getLsbD_append]
  cases m <;> rfl

theorem deviceWrites_command (ctr : Option (Space × Nat)) (v : Byte) (ws : List BusWord) :
    deviceWrites ctr (busWord .low v :: ws) = deviceWrites ((selectedAddress v).or ctr) ws := by
  simp [deviceWrites]

theorem deviceWrites_data (a : Space × Nat) (v : Byte) (ws : List BusWord) :
    deviceWrites (some a) (busWord .high v :: ws) = (a.1, a.2, v) :: deviceWrites (some (nextAddress a)) ws := by
  simp [deviceWrites]

/-- Data bytes go to one CGRAM address after another, as long as there are addresses left (20_memory R73). -/
theorem deviceWrites_cgram (a k : Nat) (bs : List Byte) (h : a + k + bs.length ≤ 64) :
    deviceWrites (some (.cgram, (a + k) % 64)) (bs.map (busWord .high)) =
      (bs.zipIdx k).map fun x => (.cgram, a + x.2, x.1) := by
  induction bs generalizing k with
  | nil => rfl
  | cons v bs ih =>
    rw [List.length_cons] at h
    have hnext : nextAddress (.cgram, (a + k) % 64) = (.cgram, (a + (k + 1)) % 64) := by
      rw [nextAddress, Nat.mod_add_mod, Nat.add_assoc]
    rw [List.map_cons, deviceWrites_data, hnext, ih (k + 1) (by omega), List.zipIdx_cons, List.map_cons,
      Nat.mod_eq_of_lt (by omega)]

/-- The three bits of the slot stand above the three of the row, below the bit that selects CGRAM (30_encoding R96). -/
theorem cgramCmd_toNat (slot : Byte) : (cgramCmd slot).toNat = 64 + slot.toNat % 8 * 8 := by
  have hmask : (effSlot slot).toNat = slot.toNat % 8 := by
    rw [effSlot, BitVec.toNat_and]
    exact Nat.and_two_pow_sub_one_eq_mod slot.toNat 3
  have hshift : (effSlot slot <<< 3).toNat = slot.toNat % 8 * 8 := by
    rw [BitVec.toNat_shiftLeft, hmask, Nat.shiftLeft_eq]
    omega
  rw [cgramCmd, BitVec.toNat_or, hshift]
  exact (Nat.two_pow_add_eq_or_of_lt (i := 6) (by omega) 1).symm

theorem selectedAddress_cgramCmd (slot : Byte) : selectedAddress (cgramCmd slot) = some (.cgram, slot.toNat % 8 * 8) := by
  have hval := cgramCmd_toNat slot
  have h7 : (cgramCmd slot).getLsbD 7 = false := by
    rw [BitVec.getLsbD, hval]
    exact Nat.testBit_lt_two_pow (by omega)
  have h6 : (cgramCmd slot).getLsbD 6 = true := by
    rw [BitVec.getLsbD, hval, Nat.testBit_eq_decide_div_mod_eq]
    exact decide_eq_true (by omega)
  have haddr : ((cgramCmd slot).extractLsb' 0 6).toNat = slot.toNat % 8 * 8 := by
    rw [BitVec.extractLsb'_toNat, hval]
    omega
  rw [selectedAddress, h7, h6, haddr]
  rfl

/-- Settles O54: the command selects the slot's first address, and the eight bytes fit between it and the end of CGRAM. -/
theorem glyphRowsLandInCgram : Obligations.GlyphRowsLandInCgram := by
  intro numLines dispctl entry slot b
  have hstart : slot.toNat % 8 * 8 = (slot.toNat % 8 * 8 + 0) % 64 := by omega
  have hfit : slot.toNat % 8 * 8 + 0 + (bitmapBytes b).length ≤ 64 := by
    rw [show (bitmapBytes b).length = 8 from rfl]
    omega
  rw [busWords, deviceWrites_command, selectedAddress_cgramCmd, Option.some_or]
  nth_rw 1 [hstart]
  exact deviceWrites_cgram _ 0 _ hfit

end Sys2Proof.Safety
end

section
/-! SUPPORT. The text of a request read back: the lexer on words and separators, the parsers on written operands, and each request's own
line (30_encoding R104). -/

namespace Sys2Proof.Safety

open Sys2Proof.Machine

/-! ## The lexer -/

/-- A text that the lexer reads as one word. -/
def IsWord (w : List Char) : Prop := w ≠ [] ∧ ∀ c ∈ w, isWordChar c = true

/-- The text begins with no character of a word, so a word may stand before it. -/
def EndsWord (cs : List Char) : Prop := ∀ c ∈ cs.head?, isWordChar c = false

theorem isWord_of_all {w : List Char} (hne : w.isEmpty = false) (hall : w.all isWordChar = true) : IsWord w :=
  ⟨List.isEmpty_eq_false_iff.mp hne, List.all_eq_true.mp hall⟩

theorem endsWord_nil : EndsWord [] := fun _ h => nomatch h

theorem endsWord_cons {c : Char} (h : isWordChar c = false) (cs : List Char) : EndsWord (c :: cs) := by
  simpa [EndsWord] using h

theorem lexAux_wordChars {w : List Char} (h : ∀ c ∈ w, isWordChar c = true) (cs acc : List Char) :
    lexAux (w ++ cs) acc = lexAux cs (w.reverse ++ acc) := by
  induction w generalizing acc with
  | nil => rfl
  | cons c w ih =>
    rw [List.forall_mem_cons] at h
    obtain ⟨hc, hw⟩ := h
    simp [lexAux, hc, ih hw]

/-- Where no word goes on, the word in progress becomes a token before those that follow. -/
theorem lexAux_of_endsWord {cs : List Char} (h : EndsWord cs) (acc : List Char) :
    lexAux cs acc = (lex cs).map (flushWord acc) := by
  cases cs with
  | nil => rfl
  | cons c cs =>
    have hc : isWordChar c = false := h c rfl
    simp only [lex, lexAux, hc, Bool.false_eq_true, if_false]
    split_ifs
    case neg => rfl
    all_goals cases lexAux cs [] <;> rfl

theorem flushWord_reverse {w : List Char} (h : w ≠ []) (ts : List Token) : flushWord w.reverse ts = .word w :: ts := by
  cases hr : w.reverse with
  | nil => exact absurd (List.reverse_eq_nil_iff.mp hr) h
  | cons c cs => rw [flushWord, ← hr, List.reverse_reverse]

section Lexing

variable {cs : List Char} {ts : List Token}

theorem lex_word {w : List Char} (hw : IsWord w) (hsep : EndsWord cs) (h : lex cs = .ok ts) :
    lex (w ++ cs) = .ok (.word w :: ts) := by
  rw [lex, lexAux_wordChars hw.2, List.append_nil, lexAux_of_endsWord hsep, h, Except.map, flushWord_reverse hw.1]

theorem lex_space (h : lex cs = .ok ts) : lex (' ' :: cs) = .ok ts := by
  rw [lex, lexAux, if_neg (by decide), if_pos rfl]
  exact congrArg (Except.map (flushWord [])) h

theorem lex_comma (h : lex cs = .ok ts) : lex (',' :: cs) = .ok (.comma :: ts) := by
  rw [lex, lexAux, if_neg (by decide), if_neg (by decide), if_pos rfl]
  exact congrArg (Except.map fun ts => flushWord [] (.comma :: ts)) h

theorem lex_openBracket (h : lex cs = .ok ts) : lex ('[' :: cs) = .ok (.openBracket :: ts) := by
  rw [lex, lexAux, if_neg (by decide), if_neg (by decide), if_neg (by decide), if_pos rfl]
  exact congrArg (Except.map fun ts => flushWord [] (.openBracket :: ts)) h

end Lexing

theorem lex_closeBracket : lex [']'] = .ok [.closeBracket] := by decide

/-! ## Operands between commas -/

/-- The tokens of words separated by commas. -/
def separated : List (List Char) → List Token
  | [] => []
  | [w] => [.word w]
  | w :: w' :: ws => .word w :: .comma :: separated (w' :: ws)

theorem lex_joinCommas_append {ws : List (List Char)} (hw : ∀ w ∈ ws, IsWord w) {cs : List Char} {ts : List Token}
    (hsep : EndsWord cs) (h : lex cs = .ok ts) : lex (joinCommas ws ++ cs) = .ok (separated ws ++ ts) := by
  induction ws using joinCommas.induct with
  | case1 => exact h
  | case2 w => exact lex_word (hw w (by simp)) hsep h
  | case3 w w' ws ih =>
    rw [List.forall_mem_cons] at hw
    obtain ⟨hfirst, hrest⟩ := hw
    simpa [joinCommas, separated] using lex_word hfirst (endsWord_cons (by decide) _) (lex_comma (lex_space (ih hrest)))

theorem lex_joinCommas {ws : List (List Char)} (hw : ∀ w ∈ ws, IsWord w) : lex (joinCommas ws) = .ok (separated ws) := by
  simpa using lex_joinCommas_append hw endsWord_nil (show lex [] = .ok [] from rfl)

theorem commaWords_separated {ws : List (List Char)} (h : ws ≠ []) : commaWords (separated ws) = .ok ws := by
  induction ws using separated.induct with
  | case1 => exact absurd rfl h
  | case2 w => rfl
  | case3 w w' ws ih => rw [separated, commaWords, ih (by simp)]; rfl

/-! ## Numbers -/

theorem isWordChar_digitChar {n : Nat} (h : n < 16) : isWordChar (digitChar n) = true := by
  interval_cases n <;> decide

theorem digitValue_digitChar {n : Nat} (h : n < 16) : digitValue (digitChar n) = some n := by
  interval_cases n <;> decide

theorem digitsValue_digitChar {base d : Nat} (hd : d < base) (hbase : base ≤ 16) (cs : List Char) (acc : Nat) :
    digitsValue base (digitChar d :: cs) acc = digitsValue base cs (acc * base + d) := by
  simp [digitsValue, digitValue_digitChar (by omega : d < 16), hd]

/-- A byte is its high nibble before its low one (20_memory R67). -/
theorem nibbles_toNat (v : Byte) : (highNibble v).toNat * 16 + (lowNibble v).toNat = v.toNat := by
  have hlt := v.isLt
  simp only [highNibble, lowNibble, BitVec.extractLsb'_toNat, Nat.shiftRight_eq_div_pow]
  omega

theorem isWord_encodeByte (v : Byte) : IsWord (encodeByte v) := by
  have hhigh := isWordChar_digitChar (highNibble v).isLt
  have hlow := isWordChar_digitChar (lowNibble v).isLt
  have hprefix : isWordChar '0' = true ∧ isWordChar 'x' = true := by decide
  simp [IsWord, encodeByte, hhigh, hlow, hprefix]

theorem parseByte_of_parseNumber {w : List Char} {v : Byte} (h : parseNumber w = .ok v.toNat) : parseByte w = .ok v := by
  simp [parseByte, h, v.isLt]

theorem parseByte_encodeByte (v : Byte) : parseByte (encodeByte v) = .ok v := by
  refine parseByte_of_parseNumber ?_
  have hdigits : digitsValue 16 [digitChar (highNibble v).toNat, digitChar (lowNibble v).toNat] 0 = some v.toNat := by
    rw [digitsValue_digitChar (highNibble v).isLt le_rfl, digitsValue_digitChar (lowNibble v).isLt le_rfl, Nat.zero_mul,
      Nat.zero_add, nibbles_toNat, digitsValue]
  simp only [parseNumber, encodeByte, hdigits]

/-- A text of decimal digits is no hexadecimal number: `x` is no digit. -/
theorem parseNumber_of_decimal {w : List Char} {n : Nat} (hne : w ≠ []) (h : digitsValue 10 w 0 = some n) :
    parseNumber w = .ok n := by
  unfold parseNumber
  split
  · next c cs => simp [digitsValue, show digitValue '0' = some 0 by decide, show digitValue 'x' = none by decide] at h
  · rw [h]
  · exact absurd rfl hne

theorem isWordChar_decimalDigits (fuel n : Nat) {acc : List Char} (h : ∀ c ∈ acc, isWordChar c = true) :
    ∀ c ∈ decimalDigits fuel n acc, isWordChar c = true := by
  induction fuel generalizing n acc with
  | zero => exact h
  | succ fuel ih =>
    have hcons : ∀ c ∈ digitChar (n % 10) :: acc, isWordChar c = true :=
      List.forall_mem_cons.mpr ⟨isWordChar_digitChar (by omega), h⟩
    rw [decimalDigits]
    split
    · exact hcons
    · exact ih (n / 10) hcons

theorem decimalDigits_ne_nil (fuel n : Nat) {acc : List Char} (h : acc ≠ []) : decimalDigits fuel n acc ≠ [] := by
  induction fuel generalizing n acc with
  | zero => exact h
  | succ fuel ih =>
    rw [decimalDigits]
    split
    · simp
    · exact ih (n / 10) (by simp)

/-- The digits of `n` written before `acc` are read as the value `n` before `acc`, the fuel allowing for all of them. -/
theorem digitsValue_decimalDigits (fuel n : Nat) (acc : List Char) (h : n < 10 ^ fuel) :
    digitsValue 10 (decimalDigits fuel n acc) 0 = digitsValue 10 acc n := by
  induction fuel generalizing n acc with
  | zero =>
    have hn : n = 0 := by simpa using h
    rw [hn, decimalDigits]
  | succ fuel ih =>
    have hdigit : n % 10 < 10 := Nat.mod_lt n (by decide)
    rw [decimalDigits]
    split
    · next hlast =>
      rw [digitsValue_digitChar hdigit (by decide)]
      congr 1
      omega
    · rw [ih (n / 10) _ (by rw [pow_succ] at h; omega), digitsValue_digitChar hdigit (by decide)]
      congr 1
      omega

theorem isWord_encodeLineId (n : LineId) : IsWord (encodeLineId n) :=
  ⟨by simp [encodeLineId],
    List.forall_mem_cons.mpr ⟨by decide, isWordChar_decimalDigits 3 n.toNat (by simp)⟩⟩

theorem parseLineId_encodeLineId (n : LineId) : parseLineId (encodeLineId n) = .ok n := by
  have hvalue : digitsValue 10 (decimalDigits 3 n.toNat []) 0 = some n.toNat :=
    digitsValue_decimalDigits 3 n.toNat [] (by have := n.isLt; omega)
  have hne : decimalDigits 3 n.toNat [] ≠ [] := by
    rw [decimalDigits]
    split
    · simp
    · exact decimalDigits_ne_nil 2 _ (by simp)
  have hparse : parseByte (decimalDigits 3 n.toNat []) = .ok n := parseByte_of_parseNumber (parseNumber_of_decimal hne hvalue)
  simp only [parseLineId, encodeLineId, hparse]

/-! ## The operands of a request -/

theorem parseOne_separated (f : Byte → Instr) (v : Byte) : parseOne f (separated [encodeByte v]) = .ok (f v) := by
  rw [parseOne, commaWords_separated (by simp)]
  simp only [bind, Except.bind, parseByte_encodeByte]

theorem parseTwo_separated (f : Byte → Byte → Instr) (a b : Byte) :
    parseTwo f (separated [encodeByte a, encodeByte b]) = .ok (f a b) := by
  rw [parseTwo, commaWords_separated (by simp)]
  simp only [bind, Except.bind, parseByte_encodeByte]

theorem parseBitmap_encodeByte (b : Bitmap) : parseBitmap ((bitmapBytes b).map encodeByte) = .ok b := by
  simp only [bitmapBytes, List.map, parseBitmap, bind, Except.bind, parseByte_encodeByte]

theorem parseCreateChar_separated (slot : Byte) (b : Bitmap) :
    parseCreateChar (.word (encodeByte slot) :: .comma :: .openBracket
      :: (separated ((bitmapBytes b).map encodeByte) ++ [.closeBracket])) = .ok (.createChar slot b) := by
  have hne : (separated ((bitmapBytes b).map encodeByte)).reverse ≠ [] := by simp [bitmapBytes, separated]
  have hwords := commaWords_separated (ws := (bitmapBytes b).map encodeByte) (by simp [bitmapBytes])
  simp only [parseCreateChar, List.reverse_append, List.reverse_singleton, List.singleton_append, if_neg hne,
    List.reverse_reverse, hwords, bind, Except.bind, parseByte_encodeByte, parseBitmap_encodeByte]

theorem parseConstruct_separated (ver : Byte) (rs rw e d0 d1 d2 d3 : LineId) :
    parseConstruct (separated
      [encodeByte ver, encodeLineId rs, encodeLineId rw, encodeLineId e, encodeLineId d0, encodeLineId d1,
       encodeLineId d2, encodeLineId d3]) = .ok (.construct ver rs rw e d0 d1 d2 d3) := by
  rw [parseConstruct, commaWords_separated (by simp)]
  simp only [bind, Except.bind, parseByte_encodeByte, parseLineId_encodeLineId]

/-! ## A whole line -/

theorem decode_mnemonic {m : List Char} (hm : IsWord m) : decode m = parseRequest m [] := by
  have hlex := lex_word hm endsWord_nil rfl
  rw [List.append_nil] at hlex
  rw [decode, hlex]
  rfl

theorem decode_operands {m ops : List Char} {ts : List Token} (hm : IsWord m) (h : lex ops = .ok ts) :
    decode (m ++ ' ' :: ops) = parseRequest m ts := by
  rw [decode, lex_word hm (endsWord_cons (by decide) _) (lex_space h)]
  rfl

theorem decode_byte {m : List Char} (hm : IsWord m) (v : Byte) :
    decode (m ++ ' ' :: encodeByte v) = parseRequest m (separated [encodeByte v]) :=
  decode_operands hm (lex_joinCommas (ws := [encodeByte v]) (by simp [isWord_encodeByte]))

theorem decode_bytes {m : List Char} (hm : IsWord m) (a b : Byte) :
    decode (m ++ ' ' :: joinCommas [encodeByte a, encodeByte b]) = parseRequest m (separated [encodeByte a, encodeByte b]) :=
  decode_operands hm (lex_joinCommas (by simp [isWord_encodeByte]))

theorem decode_construct (ver : Byte) (rs rw e d0 d1 d2 d3 : LineId) :
    decode ("CONSTRUCT ".toList ++ joinCommas
      [encodeByte ver, encodeLineId rs, encodeLineId rw, encodeLineId e, encodeLineId d0, encodeLineId d1,
       encodeLineId d2, encodeLineId d3]) = .ok (.construct ver rs rw e d0 d1 d2 d3) :=
  (decode_operands (m := "CONSTRUCT".toList) (isWord_of_all rfl rfl)
    (lex_joinCommas (by simp [isWord_encodeByte, isWord_encodeLineId]))).trans
    (parseConstruct_separated ver rs rw e d0 d1 d2 d3)

theorem decode_createChar (slot : Byte) (b : Bitmap) :
    decode ("CREATE_CHAR ".toList ++ encodeByte slot ++ ", [".toList ++ joinCommas ((bitmapBytes b).map encodeByte) ++ [']'])
      = .ok (.createChar slot b) := by
  have hbytes : ∀ w ∈ (bitmapBytes b).map encodeByte, IsWord w := by simp [isWord_encodeByte]
  have hops : lex (encodeByte slot ++ ',' :: ' ' :: '[' :: (joinCommas ((bitmapBytes b).map encodeByte) ++ [']'])) = _ :=
    lex_word (isWord_encodeByte slot) (endsWord_cons (by decide) _)
      (lex_comma (lex_space (lex_openBracket
        (lex_joinCommas_append hbytes (endsWord_cons (by decide) _) lex_closeBracket))))
  have hline := (decode_operands (m := "CREATE_CHAR".toList) (isWord_of_all rfl rfl) hops).trans
    (parseCreateChar_separated slot b)
  simpa using hline

/-- Settles O49: request by request, the line is read as its mnemonic and its operands. -/
theorem textRoundTrip : Obligations.TextRoundTrip := by
  intro i cs h
  cases i with
  | construct ver rs rw e d0 d1 d2 d3 =>
    cases h
    exact decode_construct ver rs rw e d0 d1 d2 d3
  | beginInit cols rows =>
    cases h
    exact (decode_bytes (m := "BEGIN".toList) (isWord_of_all rfl rfl) cols rows).trans (parseTwo_separated _ cols rows)
  | command v =>
    cases h
    exact (decode_byte (m := "COMMAND".toList) (isWord_of_all rfl rfl) v).trans (parseOne_separated _ v)
  | write v =>
    cases h
    exact (decode_byte (m := "WRITE".toList) (isWord_of_all rfl rfl) v).trans (parseOne_separated _ v)
  | setCursor col row =>
    cases h
    exact (decode_bytes (m := "SET_CURSOR".toList) (isWord_of_all rfl rfl) col row).trans
      (parseTwo_separated _ col row)
  | createChar slot b =>
    cases h
    exact decode_createChar slot b
  | clear => cases h; exact decode_mnemonic (isWord_of_all rfl rfl)
  | home => cases h; exact decode_mnemonic (isWord_of_all rfl rfl)
  | display => cases h; exact decode_mnemonic (isWord_of_all rfl rfl)
  | noDisplay => cases h; exact decode_mnemonic (isWord_of_all rfl rfl)
  | cursor => cases h; exact decode_mnemonic (isWord_of_all rfl rfl)
  | noCursor => cases h; exact decode_mnemonic (isWord_of_all rfl rfl)
  | blink => cases h; exact decode_mnemonic (isWord_of_all rfl rfl)
  | noBlink => cases h; exact decode_mnemonic (isWord_of_all rfl rfl)
  | scrollDisplayLeft => cases h; exact decode_mnemonic (isWord_of_all rfl rfl)
  | scrollDisplayRight => cases h; exact decode_mnemonic (isWord_of_all rfl rfl)
  | leftToRight => cases h; exact decode_mnemonic (isWord_of_all rfl rfl)
  | rightToLeft => cases h; exact decode_mnemonic (isWord_of_all rfl rfl)
  | autoscroll => cases h; exact decode_mnemonic (isWord_of_all rfl rfl)
  | noAutoscroll => cases h; exact decode_mnemonic (isWord_of_all rfl rfl)
  | write4bits n => cases h
  | pulseEnable => cases h
  | send v mode => cases h
  | waitForReady => cases h
  | powerOnSequence cols rows => cases h

end Sys2Proof.Safety
end

section
/-! SUPPORT. The bytes and bus words of the opcode table, what each row matches, and the set a word decodes to (30_encoding R91, R95 to R98,
R106). -/

namespace Sys2Proof.Safety

open Sys2Proof.Machine

/-! ## Bytes -/

/-- The row's offset is looked up at the clamped row (30_encoding R95). -/
theorem ddramCmd_eq (numLines col row : Byte) :
    ddramCmd numLines col row =
      (([0x00, 0x40, 0x14, 0x54] : List Byte)[if numLines ≤ row then 0 else row.toNat]?).map fun off =>
        0x80 ||| (col + off) := by
  by_cases h : numLines ≤ row <;> simp only [ddramCmd, effRow, h, if_true, if_false] <;> rfl

theorem rowOffset_eq_none_iff (r : Byte) : rowOffset r = none ↔ 4 ≤ r.toNat := by
  simp [rowOffset, Config.rowOffsets]

/-- Only a row below NUMLINES is kept, so a row that is not 0 after the clamp is below it (R95). -/
theorem toNat_lt_of_effRow_ne_zero {numLines row : Byte} (h : effRow numLines row ≠ 0) :
    (effRow numLines row).toNat < numLines.toNat := by
  unfold effRow at h ⊢
  split_ifs with hle
  · exact absurd (if_pos hle) h
  · exact BitVec.not_le.mp hle

theorem exec_setCursor_of_offset {s : State} {col row v : Byte} (hs : s.seq = .idle) (hc : s.constructed = true)
    (hv : ddramCmd s.numLines col row = some v) :
    exec (.setCursor col row) s = .next (start (.setCursor col row) (sendOps v .low) s) := by
  rw [exec, execSetCursor, takeRequest_of_ready hs hc, hv]

theorem exec_setCursor_of_no_offset {s : State} {col row : Byte} (hs : s.seq = .idle) (hc : s.constructed = true)
    (hv : ddramCmd s.numLines col row = none) :
    exec (.setCursor col row) s = .next (endWithRecord (.fault (.rowOffsetOutOfTable row)) s) := by
  rw [exec, execSetCursor, takeRequest_of_ready hs hc, hv]

/-- Settles O37: below row 4 the clamped row has an offset, from there on none, and no such row is left by the clamp at 4 lines or fewer. -/
theorem setCursorByteAndFault : Obligations.SetCursorByteAndFault := by
  intro s col row hs hc eff
  refine ⟨rfl, fun off hoff => ⟨?_, ?_⟩, fun hrow => ⟨?_, ?_⟩⟩
  · exact congrArg (Option.map fun off => ddramByte off col) hoff
  · ext i hi
    interval_cases i <;> simp
  · have hne : effRow s.numLines row ≠ 0 := fun h => by
      rw [show eff = effRow s.numLines row from rfl, h] at hrow
      exact absurd hrow (by decide)
    exact lt_of_le_of_lt hrow (toNat_lt_of_effRow_ne_zero hne)
  · have hnone : ddramCmd s.numLines col row = none := Option.map_eq_none_iff.mpr ((rowOffset_eq_none_iff eff).mpr hrow)
    rw [exec_setCursor_of_no_offset hs hc hnone, endWithRecord, ← hs]
    rfl

/-- Settles O47: the masked slot is the low three bits, which the shift puts below bit 6. -/
theorem cgramCommandByte : Obligations.CgramCommandByte := by
  intro slot
  have hmask : (effSlot slot).toNat = slot.toNat % 8 := by
    rw [effSlot, BitVec.toNat_and]
    exact Nat.and_two_pow_sub_one_eq_mod slot.toNat 3
  refine ⟨rfl, by omega, rfl, ?_⟩
  rw [cgramCmd_toNat, hmask, Nat.mul_comm]

/-- Settles O48: the fields are the low bits, which neither 0x08 nor 0x04 holds. -/
theorem shadowCommandBytes : Obligations.ShadowCommandBytes := by
  refine ⟨fun d => ⟨rfl, ?_, ?_, ?_⟩, fun t => ⟨rfl, ?_, ?_⟩, rfl, rfl, rfl, rfl, rfl⟩ <;>
    simp [dispctlCmd, entryCmd]

/-! ## The row of a bus word -/

theorem getElem_busWord (m : Level) (v : Byte) {i : Nat} (h : i < 8) : (busWord m v)[i] = v[i] := by
  unfold busWord
  rw [BitVec.getElem_append, dif_pos h]

theorem getElem_busWord_mode (m : Level) (v : Byte) : (busWord m v)[8] = (m == .high) := by
  unfold busWord
  rw [BitVec.getElem_append, dif_neg (by decide)]
  cases m <;> rfl

/-- A mask that holds the RS bit masks the byte and keeps the mode. -/
theorem busWord_and_high (m : Level) (v mask : Byte) : busWord m v &&& busWord .high mask = busWord m (v &&& mask) := by
  ext i hi
  obtain hlt | rfl : i < 8 ∨ i = 8 := by omega
  · simp [getElem_busWord, hlt]
  · simp [getElem_busWord_mode]

theorem setBit_and_self (v : Byte) : (0x80 ||| v) &&& 0x80 = (0x80 : Byte) := by
  ext i hi
  interval_cases i <;> simp

theorem cgramCmd_and_mask (slot : Byte) : cgramCmd slot &&& 0xC7 = 0x40 := by
  ext i hi
  simp only [cgramCmd, effSlot]
  interval_cases i <;> simp

theorem dispctlCmd_matches (d : BitVec 3) :
    busWord .low (dispctlCmd (setField dispctlD d)) &&& 0x1FC = 0x00C ∧
      busWord .low (dispctlCmd (clearField dispctlD d)) &&& 0x1FC = 0x008 ∧
      busWord .low (dispctlCmd (setField dispctlC d)) &&& 0x1FA = 0x00A ∧
      busWord .low (dispctlCmd (clearField dispctlC d)) &&& 0x1FA = 0x008 ∧
      busWord .low (dispctlCmd (setField dispctlB d)) &&& 0x1F9 = 0x009 ∧
      busWord .low (dispctlCmd (clearField dispctlB d)) &&& 0x1F9 = 0x008 := by
  revert d
  decide

theorem entryCmd_matches (t : BitVec 2) :
    busWord .low (entryCmd (setField entryID t)) &&& 0x1FE = 0x006 ∧
      busWord .low (entryCmd (clearField entryID t)) &&& 0x1FE = 0x004 ∧
      busWord .low (entryCmd (setField entryS t)) &&& 0x1FD = 0x005 ∧
      busWord .low (entryCmd (clearField entryS t)) &&& 0x1FD = 0x004 := by
  revert t
  decide

theorem setCursor_matches {numLines col row v : Byte} (h : ddramCmd numLines col row = some v) :
    busWord .low v &&& 0x180 = 0x080 := by
  obtain ⟨off, -, rfl⟩ := Option.map_eq_some_iff.mp h
  exact (busWord_and_high .low _ 0x80).trans (congrArg (busWord .low) (setBit_and_self (col + off)))


/-- Settles O51: row by row; only a masked-out bit depends on the operands or the registers. -/
theorem busWordsMatchTheirRow : Obligations.BusWordsMatchTheirRow := by
  intro i numLines dispctl entry w pattern mask hw hrow
  obtain ⟨hdisplay, hnoDisplay, hcursor, hnoCursor, hblink, hnoBlink⟩ := dispctlCmd_matches dispctl
  obtain ⟨hleft, hright, hauto, hnoAuto⟩ := entryCmd_matches entry
  cases i with
  | construct ver rs rw e d0 d1 d2 d3 => cases hrow
  | beginInit cols rows => cases hrow
  | command v => cases hw; cases hrow; exact (busWord_and_high .low v 0).trans (congrArg (busWord .low) BitVec.and_zero)
  | write v => cases hw; cases hrow; exact (busWord_and_high .high v 0).trans (congrArg (busWord .high) BitVec.and_zero)
  | clear => cases hw; cases hrow; rfl
  | home => cases hw; cases hrow; rfl
  | setCursor col row =>
    cases hrow
    cases hv : ddramCmd numLines col row with
    | none => simp [busWords, hv] at hw
    | some v =>
      simp only [busWords, hv, Option.map_some, Option.toList_some, List.head?_cons, Option.some.injEq] at hw
      exact hw ▸ setCursor_matches hv
  | display => cases hw; cases hrow; exact hdisplay
  | noDisplay => cases hw; cases hrow; exact hnoDisplay
  | cursor => cases hw; cases hrow; exact hcursor
  | noCursor => cases hw; cases hrow; exact hnoCursor
  | blink => cases hw; cases hrow; exact hblink
  | noBlink => cases hw; cases hrow; exact hnoBlink
  | scrollDisplayLeft => cases hw; cases hrow; rfl
  | scrollDisplayRight => cases hw; cases hrow; rfl
  | leftToRight => cases hw; cases hrow; exact hleft
  | rightToLeft => cases hw; cases hrow; exact hright
  | autoscroll => cases hw; cases hrow; exact hauto
  | noAutoscroll => cases hw; cases hrow; exact hnoAuto
  | createChar slot bitmap =>
    cases hw; cases hrow
    exact (busWord_and_high .low _ 0xC7).trans (congrArg (busWord .low) (cgramCmd_and_mask slot))
  | write4bits n => cases hrow
  | pulseEnable => cases hrow
  | send v mode => cases hrow; simp
  | waitForReady => cases hrow
  | powerOnSequence cols rows => cases hrow

/-! ## The set a bus word decodes to -/

theorem mem_decodeBusWord {w mask pattern : BusWord} {bs : List Byte} {i : Instr}
    (hrow : ⟨mask, pattern, i⟩ ∈ requestRows w bs) (h : w &&& mask = pattern) : i ∈ decodeBusWord w bs :=
  List.mem_map.mpr ⟨⟨mask, pattern, i⟩, List.mem_filter.mpr ⟨hrow, by simpa [rowMatches] using h⟩, rfl⟩

section Decoding

variable {numLines : Byte} {dispctl : BitVec 3} {entry : BitVec 2} {w mask pattern : BusWord} {ws : List BusWord} {i : Instr}

/-- The words a request sends decode to what its row reads from them. -/
theorem decodes_to_reading {i' : Instr} (hwords : busWords numLines dispctl entry i = w :: ws)
    (htable : tableRow i = some (pattern, mask)) (hrow : ⟨mask, pattern, i'⟩ ∈ requestRows w (ws.map busWordByte))
    (htable' : tableRow i' = tableRow i) (hwords' : busWords numLines dispctl entry i' = w :: ws) :
    ∃ i' ∈ decodeBusWord w (ws.map busWordByte), tableRow i' = tableRow i ∧ busWords numLines dispctl entry i' = w :: ws :=
  ⟨i', mem_decodeBusWord hrow
    (busWordsMatchTheirRow i numLines dispctl entry w pattern mask (by rw [hwords]; rfl) htable), htable', hwords'⟩

/-- A request that its row reads back as itself. -/
theorem decodes_to_itself (hwords : busWords numLines dispctl entry i = w :: ws)
    (htable : tableRow i = some (pattern, mask)) (hrow : ⟨mask, pattern, i⟩ ∈ requestRows w (ws.map busWordByte)) :
    ∃ i' ∈ decodeBusWord w (ws.map busWordByte), tableRow i' = tableRow i ∧ busWords numLines dispctl entry i' = w :: ws :=
  decodes_to_reading hwords htable hrow rfl hwords

end Decoding

/-- The column of row 0 that a set-DDRAM-address word is read as gives that word again. -/
theorem ddramCmd_reading (numLines x : Byte) :
    ddramCmd numLines (((busWord .low (0x80 ||| x)).extractLsb' 0 7).setWidth 8) 0 = some (0x80 ||| x) := by
  have hbits : (0x80 : Byte) ||| (((busWord .low (0x80 ||| x)).extractLsb' 0 7).setWidth 8 + 0) = 0x80 ||| x := by
    rw [show ∀ y : Byte, y + 0 = y from BitVec.add_zero]
    ext i hi
    interval_cases i <;> simp [getElem_busWord]
  rw [ddramCmd_eq, show (0 : Byte).toNat = 0 from rfl, ite_self]
  exact congrArg some hbits

/-- The slot below 8 that a set-CGRAM-address word is read as gives that word again. -/
theorem cgramCmd_reading (slot : Byte) :
    cgramCmd (((busWord .low (cgramCmd slot)).extractLsb' 3 3).setWidth 8) = cgramCmd slot := by
  ext i hi
  simp only [cgramCmd, effSlot]
  interval_cases i <;> simp [getElem_busWord]


/-- Settles O52: a request without operands, COMMAND and WRITE decode to themselves, SET_CURSOR and CREATE_CHAR to what their row reads. -/
theorem busWordsDecodeToTheirSenders : Obligations.BusWordsDecodeToTheirSenders := by
  intro i numLines dispctl entry w ws hw hrow hwords
  obtain ⟨row, hrow⟩ := hrow
  cases i with
  | construct ver rs rw e d0 d1 d2 d3 => cases hrow
  | beginInit cols rows => cases hrow
  | command v =>
    cases hwords
    exact decodes_to_itself rfl rfl (by simp [requestRows])
  | write v =>
    cases hwords
    exact decodes_to_itself rfl rfl (by simp [requestRows])
  | setCursor col row =>
    cases hv : ddramCmd numLines col row with
    | none => simp [busWords, hv] at hwords
    | some v =>
      have hsent : w = busWord .low v ∧ ws = [] := by simpa [busWords, hv, eq_comm] using hwords
      obtain ⟨rfl, rfl⟩ := hsent
      obtain ⟨off, -, rfl⟩ := Option.map_eq_some_iff.mp hv
      refine decodes_to_reading hwords rfl
        (i' := .setCursor (((busWord .low (ddramByte off col)).extractLsb' 0 7).setWidth 8) 0) (by simp [requestRows]) rfl ?_
      rw [busWords, ddramByte, ddramCmd_reading]
      rfl
  | createChar slot bitmap =>
    cases hwords
    refine decodes_to_reading rfl rfl
      (i' := .createChar (((busWord .low (cgramCmd slot)).extractLsb' 3 3).setWidth 8) bitmap) ?_ rfl ?_
    · simp [requestRows, operandBitmap, bitmapBytes]
    · rw [busWords, cgramCmd_reading]
  | clear => exact decodes_to_itself hwords rfl (by simp [requestRows])
  | home => exact decodes_to_itself hwords rfl (by simp [requestRows])
  | display => exact decodes_to_itself hwords rfl (by simp [requestRows])
  | noDisplay => exact decodes_to_itself hwords rfl (by simp [requestRows])
  | cursor => exact decodes_to_itself hwords rfl (by simp [requestRows])
  | noCursor => exact decodes_to_itself hwords rfl (by simp [requestRows])
  | blink => exact decodes_to_itself hwords rfl (by simp [requestRows])
  | noBlink => exact decodes_to_itself hwords rfl (by simp [requestRows])
  | scrollDisplayLeft => exact decodes_to_itself hwords rfl (by simp [requestRows])
  | scrollDisplayRight => exact decodes_to_itself hwords rfl (by simp [requestRows])
  | leftToRight => exact decodes_to_itself hwords rfl (by simp [requestRows])
  | rightToLeft => exact decodes_to_itself hwords rfl (by simp [requestRows])
  | autoscroll => exact decodes_to_itself hwords rfl (by simp [requestRows])
  | noAutoscroll => exact decodes_to_itself hwords rfl (by simp [requestRows])
  | write4bits n => cases hw
  | pulseEnable => cases hw
  | send v mode => cases hw
  | waitForReady => cases hw
  | powerOnSequence cols rows => cases hw

/-- Settles O50: the lines and words are read by evaluation. -/
theorem writtenRequestsDecode : Obligations.WrittenRequestsDecode :=
  ⟨rfl, rfl, rfl, by decide, by decide, by decide⟩

end Sys2Proof.Safety
end

section
/-! SUPPORT. What an idle block makes of an offer, the request a command stands for, and the trace at the platform's lines (30_encoding R90,
R94, R105, R106). -/

namespace Sys2Proof.Safety

open Sys2Proof.Machine

/-! ## Offers -/

section Offers

variable {s : State} {o : Offer} {rest : List Offer}

theorem step_of_request {i : Instr} (hs : s.seq = .idle) (hh : s.host = o :: rest) (ho : decodeOffer o = .ok i)
    (hw : i.wellFormed = true) : step s = exec i { s with host := rest } := by
  simp [step, hs, fetch, hh, ho, hw, State.withHost]

theorem step_of_not_request {i : Instr} (hs : s.seq = .idle) (hh : s.host = o :: rest) (ho : decodeOffer o = .ok i)
    (hw : i.wellFormed = false) : step s = .refused (.notARequest i) := by
  simp [step, hs, fetch, hh, ho, hw]

theorem step_of_bad_offer {e : DecodeError} (hs : s.seq = .idle) (hh : s.host = o :: rest) (ho : decodeOffer o = .error e) :
    step s = .refused (.badOffer e) := by
  simp [step, hs, fetch, hh, ho]

end Offers

/-- Settles O8: the two ways an offer is no request. -/
theorem nonRequestsAreRefused : Obligations.NonRequestsAreRefused := by
  intro s o rest hs hh
  exact ⟨fun i ho hw => step_of_not_request hs hh ho hw, fun e ho => step_of_bad_offer hs hh ho⟩

/-- The rows of the opcode table that a word is read by are all host requests' (30_encoding R90, R106). -/
theorem wellFormed_of_mem_requestRows {w : BusWord} {bs : List Byte} {r : Row} (h : r ∈ requestRows w bs) :
    r.request.wellFormed = true := by
  have hall : (requestRows w bs).all (fun r => r.request.wellFormed) = true := rfl
  exact List.all_eq_true.mp hall r h

theorem wellFormed_of_decodeTableWord {nbits w : Nat} {i : Instr} (h : decodeTableWord nbits w = some i) :
    i.wellFormed = true := by
  dsimp only [decodeTableWord] at h
  split at h
  · obtain ⟨r, hr, rfl⟩ := List.mem_map.mp (List.mem_of_head? h)
    exact wellFormed_of_mem_requestRows (List.mem_of_mem_filter hr)
  · cases h

/-- Settles O2: the word is the only offer of an idle, built block, and it decodes to a host request. -/
theorem stepRunsTableWord : Obligations.StepRunsTableWord := by
  intro s nbits w i hi
  have ho : decodeOffer (.tableWord nbits w) = .ok i := by rw [decodeOffer, hi]
  refine ⟨{ s.withFetchWord nbits w with host := [] }, rfl, ?_, fun hc => ?_,
    step_of_request rfl rfl ho (wellFormed_of_decodeTableWord hi)⟩
  · cases hc : s.constructed <;> simp [State.withFetchWord, offerTableWord, hc, builtState]
  · simp [State.withFetchWord, offerTableWord, hc, State.withSeq, State.withHost]

/-- Settles O14: the state CONSTRUCT is accepted in holds the variant that `ver` gives. -/
theorem constructDecodesVariant : Obligations.ConstructDecodesVariant := by
  intro s ver rs rw e d0 d1 d2 d3 hs hc hids
  obtain ⟨rest, h⟩ := constructIsAccepted s ver rs rw e d0 d1 d2 d3 hs hc hids
  exact ⟨_, h, fun hv => if_pos hv, fun hv => if_neg hv⟩

/-! ## The platform's lines -/

theorem duplicatedIds_of_inv {s : State} (hinv : inv s = true) (hc : s.constructed = true) :
    duplicatedIds (perLineList s.lineMap) = [] := by
  cases hs : s.seq with
  | idle => exact ((inv_iff_of_idle hs).mp hinv hc).2
  | running q ops b =>
    obtain ⟨-, -, -, hd⟩ := (inv_iff_of_running hs).mp hinv
    exact hd

/-- Seven distinct ids: a role is known by its line (10_state R24). -/
theorem perLine_get_injective {m : PerLine LineId} (h : (perLineList m).Nodup) : Function.Injective (PerLine.get m) := by
  intro l l' hl
  simp only [perLineList, List.nodup_cons, List.mem_cons, not_or, List.not_mem_nil] at h
  cases l <;> cases l' <;> simp_all [PerLine.get]

theorem platformEvent_injective {m : PerLine LineId} (h : Function.Injective (PerLine.get m)) :
    Function.Injective (platformEvent m) := by
  intro x y hxy
  cases x <;> cases y <;> simp_all [platformEvent, h.eq_iff]

/-- Settles O60: the ids of a built block are distinct, so a role is known by its line; and a step keeps the line map. -/
theorem platformTraceFollowsTheLineMap : Obligations.PlatformTraceFollowsTheLineMap := by
  intro s hinv hc
  refine ⟨fun x y hxy => ?_, fun t ht => ?_⟩
  · have hids := duplicatedIds_eq_nil_iff.mp (duplicatedIds_of_inv hinv hc)
    exact List.map_injective_iff.mpr (platformEvent_injective (perLine_get_injective hids)) hxy
  · obtain ⟨evs, htrace, hlen⟩ := traceIsAppendOnly s t hc ht
    obtain ⟨-, -, hmap, -, -⟩ := configurationIsFixed s t hc ht
    exact ⟨evs, hlen, htrace, platformTrace_append hmap htrace⟩

/-! ## A request and the COMMAND it stands for -/

theorem sendDispctl_of_ready (i : Instr) (d : BitVec 3) {s : State} (hs : s.seq = .idle) (hc : s.constructed = true) :
    sendDispctl i d s = .next (start i (sendOps (dispctlCmd d) .low) { s with dispctl := d }) := by
  rw [sendDispctl, sendCommand, takeRequest_of_ready hs hc]
  rfl

theorem sendEntry_of_ready (i : Instr) (t : BitVec 2) {s : State} (hs : s.seq = .idle) (hc : s.constructed = true) :
    sendEntry i t s = .next (start i (sendOps (entryCmd t) .low) { s with entry := t }) := by
  rw [sendEntry, sendCommand, takeRequest_of_ready hs hc]
  rfl

theorem exec_of_expansion {i : Instr} {s s1 : State} {v : Byte} (hs : s.seq = .idle) (hc : s.constructed = true)
    (h : expansion s i = some (s1, v)) : exec i s = .next (start i (sendOps v .low) s1) := by
  cases i with
  | setCursor col row =>
    have hcmd := ddramCmd_eq s.numLines col row
    simp only [expansion] at h
    split at h
    · next off hoff =>
      cases h
      rw [hoff, Option.map_some] at hcmd
      exact exec_setCursor_of_offset hs hc hcmd
    · cases h
  | clear => cases h; exact takeRequest_of_ready hs hc
  | home => cases h; exact takeRequest_of_ready hs hc
  | display => cases h; exact sendDispctl_of_ready _ _ hs hc
  | noDisplay => cases h; exact sendDispctl_of_ready _ _ hs hc
  | cursor => cases h; exact sendDispctl_of_ready _ _ hs hc
  | noCursor => cases h; exact sendDispctl_of_ready _ _ hs hc
  | blink => cases h; exact sendDispctl_of_ready _ _ hs hc
  | noBlink => cases h; exact sendDispctl_of_ready _ _ hs hc
  | scrollDisplayLeft => cases h; exact takeRequest_of_ready hs hc
  | scrollDisplayRight => cases h; exact takeRequest_of_ready hs hc
  | leftToRight => cases h; exact sendEntry_of_ready _ _ hs hc
  | rightToLeft => cases h; exact sendEntry_of_ready _ _ hs hc
  | autoscroll => cases h; exact sendEntry_of_ready _ _ hs hc
  | noAutoscroll => cases h; exact sendEntry_of_ready _ _ hs hc
  | _ => cases h

/-- The register write of an expansion is to a shadow (30_encoding R105). -/
theorem expansion_frame {i : Instr} {s s1 : State} {v : Byte} (h : expansion s i = some (s1, v)) :
    s1 = { s with dispctl := s1.dispctl, entry := s1.entry } := by
  cases i with
  | setCursor col row =>
    simp only [expansion] at h
    split at h <;> cases h
    rfl
  | _ => cases h <;> rfl

/-- Equal states, or two running blocks that differ only in which request runs: what is left of the microprogram, the handshake's b and every
register are the same. -/
def SameButRequest (t u : State) : Prop :=
  t = u ∨ ∃ q q' ops b, t.seq = .running q ops b ∧ u = t.withSeq (.running q' ops b)

theorem SameButRequest.trace_eq {t u : State} (h : SameButRequest t u) : t.trace = u.trace := by
  obtain rfl | ⟨q, q', ops, b, -, rfl⟩ := h
  · rfl
  · rfl

theorem sameButRequest_withSeq (q q' : Instr) (ops : List Op) (b : Option Level) (s : State) :
    SameButRequest (s.withSeq (.running q ops b)) (s.withSeq (.running q' ops b)) :=
  .inr ⟨q, q', ops, b, rfl, rfl⟩

theorem sameButRequest_decidePoll (q q' : Instr) (b : Option Level) (rest : List Op) (s : State) :
    SameButRequest (decidePoll q b rest s) (decidePoll q' b rest s) := by
  unfold decidePoll
  split
  · split
    · exact sameButRequest_withSeq q q' _ none s
    · dsimp only
      split
      · exact sameButRequest_withSeq q q' _ none _
      · exact sameButRequest_withSeq q q' _ none _
  · exact sameButRequest_withSeq q q' _ none s

/-- No statement asks which request runs. -/
theorem sameButRequest_settle (q q' : Instr) (b : Option Level) (ops : List Op) (s : State) :
    SameButRequest (settle q b ops s) (settle q' b ops s) := by
  induction ops generalizing s with
  | nil => exact .inl rfl
  | cons op rest ih =>
    cases op with
    | bus p => exact sameButRequest_withSeq q q' _ b s
    | geometry cols rows => exact ih (s.withGeometry cols rows)
    | shadows => exact ih s.withSequenceShadows
    | clearPolls => exact ih (clearPolls s)
    | pollDecide => exact sameButRequest_decidePoll q q' b rest s
    | raiseNotResponding => exact .inl rfl
    | returnOne => exact ih (s.withResult (.value 1))

theorem perform_error_withSeq {p : Prim} {b : Option Level} {s : State} {f : Fault} (x : Seq)
    (h : perform p b s = .error f) : perform p b (s.withSeq x) = .error f := by
  obtain ⟨l, v, rfl, rfl, hdir⟩ | ⟨l, rfl, rfl, hdir⟩ := perform_error h
  · exact perform_set_of_not_output b hdir
  · exact perform_get_of_not_input b hdir

theorem advance_of_not_atEvent {s : State} {q : Instr} {ops : List Op} {b : Option Level} (hs : s.seq = .running q ops b)
    (h : atEvent ops = false) : advance s = settle q b ops s := by
  unfold advance
  rw [hs]
  split
  · next hidle => cases hidle
  · next hbus =>
    cases hbus
    cases h
  · next hops =>
    cases hops
    rfl

/-- No primitive asks which request runs, and a fault that ends the request leaves nothing of it. -/
theorem sameButRequest_step_of_running {t : State} {q : Instr} {ops : List Op} {b : Option Level}
    (ht : t.seq = .running q ops b) (q' : Instr) :
    ∃ t' u', step t = .next t' ∧ step (t.withSeq (.running q' ops b)) = .next u' ∧ SameButRequest t' u' := by
  have hu : (t.withSeq (.running q' ops b)).seq = .running q' ops b := rfl
  cases hat : atEvent ops with
  | false =>
    refine ⟨_, _, step_of_running ht, step_of_running hu, ?_⟩
    rw [advance_of_not_atEvent ht hat, advance_of_not_atEvent hu hat, settle_withSeq]
    exact sameButRequest_settle q q' b ops t
  | true =>
    obtain ⟨p, rest, rfl⟩ := atEvent_iff.mp hat
    cases hp : perform p b t with
    | error f => exact ⟨_, _, step_of_perform_error ht hp, step_of_perform_error hu (perform_error_withSeq _ hp), .inl rfl⟩
    | ok r =>
      refine ⟨_, _, step_of_perform_ok ht hp, step_of_perform_ok hu (perform_withSeq _ hp), ?_⟩
      rw [settle_withSeq]
      exact sameButRequest_settle q q' r.1 rest r.2

theorem sameButRequest_step {t u : State} (h : SameButRequest t u) :
    step t = step u ∨ ∃ t' u', step t = .next t' ∧ step u = .next u' ∧ SameButRequest t' u' := by
  obtain rfl | ⟨q, q', ops, b, ht, rfl⟩ := h
  · exact .inl rfl
  · exact .inr (sameButRequest_step_of_running ht q')

theorem SameButRequest.traceOf_run {t u : State} (h : SameButRequest t u) (n : Nat) :
    traceOf (run n t) = traceOf (run n u) := by
  induction n generalizing t u with
  | zero => exact congrArg some h.trace_eq
  | succ n ih =>
    obtain hstep | ⟨t', u', ht, hu, h'⟩ := sameButRequest_step h
    · rw [run_succ, hstep, ← run_succ]
    · rw [run_of_next n ht, run_of_next n hu, ih h']

/-- Settles O41: the request and COMMAND start the same microprogram on the same state, and no step asks which request runs. -/
theorem requestsExpandToCommand : Obligations.RequestsExpandToCommand := by
  intro s s1 i v hs hc h
  have hframe := expansion_frame h
  have hs1 : s1.seq = .idle := by rw [hframe, hs]
  have hc1 : s1.constructed = true := by rw [hframe, hc]
  exact ⟨_, _, exec_of_expansion hs hc h, takeRequest_of_ready hs1 hc1,
    (sameButRequest_settle i (.command v) none _ _).traceOf_run⟩

end Sys2Proof.Safety
end

section
/-! SUPPORT. Whole requests run to their end: transfers one after another, and the power-on sequence (40_init_sequencer R132 to R136;
41_transfer R152; 43_command_surface R205). -/

namespace Sys2Proof.Safety

open Sys2Proof.Machine

/-! ## Pieces of a microprogram, from where settling puts SEQ -/

theorem run_settle_performAll {ps : List Prim} {q : Instr} {rest : List Op} {b b' : Option Level} {s t : State}
    (hp : performAll ps b s = .ok (b', t)) :
    run ps.length (settle q b (ps.map Op.bus ++ rest) s) = .next (settle q b' rest t) := by
  cases ps with
  | nil =>
    cases hp
    rfl
  | cons p ps =>
    have hrun := run_performAll (rest := rest) (by simp) rfl
      (performAll_withSeq (.running q ((p :: ps).map Op.bus ++ rest) b) hp)
    rw [settle_withSeq] at hrun
    exact hrun

theorem run_settle_wait (q : Instr) (b : Option Level) (us : Nat) (rest : List Op) (s : State) :
    run 1 (settle q b (opWait us :: rest) s) = .next (settle q b rest { s with trace := s.trace ++ [.wait us] }) :=
  run_settle_performAll (ps := [.wait us]) rfl

theorem run_settle_write4bits {q : Instr} {b : Option Level} {n : Nibble} {rest : List Op} {s : State}
    (hl : linesDriven s.lines = true) :
    ∃ c, linesDriven c = true ∧ run 8 (settle q b (write4bitsOps n ++ rest) s) =
      .next (settle q b rest { s with lines := c, trace := s.trace ++ nibTrace n }) := by
  obtain ⟨hrs, hrw, he, h0, h1, h2, h3⟩ := linesDriven_iff.mp hl
  refine ⟨{ s.lines with
      e := outputAt .low, data0 := outputAt (nibbleLevel n 0), data1 := outputAt (nibbleLevel n 1),
      data2 := outputAt (nibbleLevel n 2), data3 := outputAt (nibbleLevel n 3) },
    linesDriven_iff.mpr ⟨hrs, hrw, rfl, rfl, rfl, rfl, rfl⟩, ?_⟩
  rw [settle_write4bits, run_write4bits (State.withSeq_seq _ s) (by rw [State.withSeq_lines, he]; rfl) h0 h1 h2 h3]
  exact congrArg _ (settle_congr_seq rfl)

theorem run_settle_send {q : Instr} {rest : List Op} {more : List Level} (j : Nat) {b : Option Level} {s : State} {v : Byte}
    {m : Level} (hl : linesDriven s.lines = true)
    (hd : s.device = .script (pollAnswers s.params.busyLevel j ++ more)) (hb : WithinBound s j) :
    run (31 + 8 * j) (settle q b (sendOps v m ++ rest) s) = .next (settle q none rest (afterSend s v m j more)) := by
  rw [settle_send, run_send j (State.withSeq_seq _ s) hl hd hb]
  exact congrArg _ (settle_congr_seq rfl)

/-! ## Transfers one after another -/

/-- The microprogram of transfers, each a byte, its mode and how often its handshake reads busy. -/
def transferOps (xs : List ((Byte × Level) × Nat)) : List Op := xs.flatMap fun x => sendOps x.1.1 x.1.2

/-- The answers of their handshakes. -/
def transferAnswers (busy : Level) (xs : List ((Byte × Level) × Nat)) : List Level := xs.flatMap fun x => pollAnswers busy x.2

/-- The steps they take. -/
def transferSteps (xs : List ((Byte × Level) × Nat)) : Nat := (xs.map fun x => 31 + 8 * x.2).sum

/-- `s` once the transfers have run to their end on it, `more` being the answers the device has left. -/
def afterTransfers (s : State) : List ((Byte × Level) × Nat) → List Level → State
  | [], more => { s with device := .script more }
  | ((v, m), j) :: rest, more =>
    afterTransfers (afterSend s v m j (transferAnswers s.params.busyLevel rest ++ more)) rest more

theorem run_settle_transfers {q : Instr} {rest : List Op} {more : List Level} (xs : List ((Byte × Level) × Nat)) {s : State}
    (hl : linesDriven s.lines = true) (hd : s.device = .script (transferAnswers s.params.busyLevel xs ++ more))
    (hb : ∀ x ∈ xs, WithinBound s x.2) :
    run (transferSteps xs) (settle q none (transferOps xs ++ rest) s) =
      .next (settle q none rest (afterTransfers s xs more)) := by
  induction xs generalizing s with
  | nil =>
    have hs : afterTransfers s [] more = s := by rw [afterTransfers, ← show s.device = .script more from hd]
    rw [hs]
    rfl
  | cons x xs ih =>
    obtain ⟨⟨v, m⟩, j⟩ := x
    rw [List.forall_mem_cons] at hb
    obtain ⟨hj, hrest⟩ := hb
    have hfirst := run_settle_send (q := q) (rest := transferOps xs ++ rest) (b := none) (v := v) (m := m) j hl
      (by simpa [transferAnswers] using hd) hj
    have hothers := ih (s := afterSend s v m j (transferAnswers s.params.busyLevel xs ++ more)) rfl rfl hrest
    simpa [transferSteps, transferOps, afterTransfers] using run_trans hfirst hothers

theorem afterTransfers_trace (s : State) (xs : List ((Byte × Level) × Nat)) (more : List Level) :
    (afterTransfers s xs more).trace = s.trace ++ transfersTrace s.params.busyLevel xs := by
  induction xs generalizing s with
  | nil => simp [afterTransfers, transfersTrace]
  | cons x xs ih => simp [afterTransfers, ih, transfersTrace, afterSend]

/-! ## The power-on sequence -/

theorem run_settle_configure (q : Instr) (b : Option Level) (rest : List Op) (s : State) :
    run 15 (settle q b (controlLineOps ++ (dataLineOps ++ rest)) s) =
      .next (settle q b rest { s with lines := linesConfigured, trace := s.trace ++ configureTrace }) := by
  refine run_settle_performAll
    (ps := [.dir .rs .output, .dir .rw .output, .dir .e .output, .set .rs .low, .set .e .low, .set .rw .low,
      .wait Config.tPower, .dir .data0 .output, .set .data0 .low, .dir .data1 .output, .set .data1 .low,
      .dir .data2 .output, .set .data2 .low, .dir .data3 .output, .set .data3 .low]) ?_
  simp [performAll, perform, lineDir, lineSet, waitUs, PerLine.get, PerLine.put, dirLines, setLines, dirState,
    State.withLines, State.appendEvent, linesConfigured, outputAt, configureTrace, Config.tPower]

/-- The events of a lone nibble with its fixed wait (40_init_sequencer R134). -/
def loneNibbleTrace (n : Nibble) : List Event := nibTrace n ++ [.wait 5000]

theorem loneTrace_eq_flatMap (variant : Variant) : loneTrace variant = (loneNibbles variant).flatMap loneNibbleTrace := by
  cases variant <;> rfl

theorem run_settle_loneNibble {q : Instr} {b : Option Level} (n : Nibble) {rest : List Op} {s : State}
    (hl : linesDriven s.lines = true) :
    ∃ c, linesDriven c = true ∧ run 9 (settle q b (loneNibbleOps n ++ rest) s) =
      .next (settle q b rest { s with lines := c, trace := s.trace ++ loneNibbleTrace n }) := by
  obtain ⟨c, hc, hnibble⟩ := run_settle_write4bits (q := q) (b := b) (n := n) (rest := opWait Config.tInit :: rest) hl
  refine ⟨c, hc, ?_⟩
  have hrun := run_trans hnibble (run_settle_wait q b Config.tInit rest _)
  simpa [loneNibbleOps, loneNibbleTrace, Config.tInit] using hrun

theorem run_settle_loneNibbles {q : Instr} {b : Option Level} (ns : List Nibble) {rest : List Op} {s : State}
    (hl : linesDriven s.lines = true) :
    ∃ c, linesDriven c = true ∧ run (9 * ns.length) (settle q b (ns.flatMap loneNibbleOps ++ rest) s) =
      .next (settle q b rest { s with lines := c, trace := s.trace ++ ns.flatMap loneNibbleTrace }) := by
  induction ns generalizing s with
  | nil => exact ⟨s.lines, hl, by simp⟩
  | cons n ns ih =>
    obtain ⟨c, hc, hfirst⟩ := run_settle_loneNibble (q := q) (b := b) n (rest := ns.flatMap loneNibbleOps ++ rest) hl
    obtain ⟨c', hc', hothers⟩ := ih (s := { s with lines := c, trace := s.trace ++ loneNibbleTrace n }) hc
    refine ⟨c', hc', ?_⟩
    have hrun := run_trans hfirst hothers
    rw [show 9 + 9 * ns.length = 9 * (n :: ns).length by rw [List.length_cons]; omega] at hrun
    simpa using hrun

/-- The microprogram of step-8 commands, each a byte and how often its handshake reads busy (40_init_sequencer R135). -/
def commandOps (xs : List (Byte × Nat)) : List Op := xs.flatMap fun x => initCommandOps x.1

/-- The answers of their handshakes. -/
def commandAnswers (busy : Level) (xs : List (Byte × Nat)) : List Level := xs.flatMap fun x => pollAnswers busy x.2

/-- The steps they take. -/
def commandSteps (xs : List (Byte × Nat)) : Nat := (xs.map fun x => 32 + 8 * x.2).sum

/-- `s` once a step-8 command and its wait have run to their end on it. -/
def afterCommand (s : State) (v : Byte) (j : Nat) (more : List Level) : State :=
  { afterSend s v .low j more with
    trace := s.trace ++ (sendTrace v .low (pollAnswers s.params.busyLevel j) ++ [.wait 5000]) }

/-- `s` once the step-8 commands have run to their end on it, `more` being the answers the device has left. -/
def afterCommands (s : State) : List (Byte × Nat) → List Level → State
  | [], more => { s with device := .script more }
  | (v, j) :: rest, more => afterCommands (afterCommand s v j (commandAnswers s.params.busyLevel rest ++ more)) rest more

theorem run_settle_command {q : Instr} {rest : List Op} {more : List Level} (j : Nat) {b : Option Level} {s : State}
    {v : Byte} (hl : linesDriven s.lines = true)
    (hd : s.device = .script (pollAnswers s.params.busyLevel j ++ more)) (hb : WithinBound s j) :
    run (32 + 8 * j) (settle q b (initCommandOps v ++ rest) s) = .next (settle q none rest (afterCommand s v j more)) := by
  have hsend := run_settle_send (q := q) (rest := opWait Config.tInit :: rest) (b := b) (v := v) (m := .low) j hl hd hb
  have hrun := run_trans hsend (run_settle_wait q none Config.tInit rest _)
  rw [show 31 + 8 * j + 1 = 32 + 8 * j by omega] at hrun
  simpa [initCommandOps, afterCommand, afterSend, Config.tInit] using hrun

theorem run_settle_commands {q : Instr} {rest : List Op} {more : List Level} (xs : List (Byte × Nat)) {s : State}
    (hl : linesDriven s.lines = true) (hd : s.device = .script (commandAnswers s.params.busyLevel xs ++ more))
    (hb : ∀ x ∈ xs, WithinBound s x.2) :
    run (commandSteps xs) (settle q none (commandOps xs ++ rest) s) = .next (settle q none rest (afterCommands s xs more)) := by
  induction xs generalizing s with
  | nil =>
    have hs : afterCommands s [] more = s := by rw [afterCommands, ← show s.device = .script more from hd]
    rw [hs]
    rfl
  | cons x xs ih =>
    obtain ⟨v, j⟩ := x
    rw [List.forall_mem_cons] at hb
    obtain ⟨hj, hrest⟩ := hb
    have hfirst := run_settle_command (q := q) (rest := commandOps xs ++ rest) (b := none) (v := v) j hl
      (by simpa [commandAnswers] using hd) hj
    have hothers := ih (s := afterCommand s v j (commandAnswers s.params.busyLevel xs ++ more)) rfl rfl hrest
    simpa [commandSteps, commandOps, afterCommands] using run_trans hfirst hothers

/-- The five commands of step 8, the handshakes reading busy `j1` to `j5` times (40_init_sequencer R135). -/
def fiveCommands (j1 j2 j3 j4 j5 : Nat) : List (Byte × Nat) := [(0x08, j1), (0x01, j2), (0x06, j3), (0x02, j4), (0x0C, j5)]

theorem commandOps_fiveCommands (j1 j2 j3 j4 j5 : Nat) :
    commandOps (fiveCommands j1 j2 j3 j4 j5) = initCommands.flatMap initCommandOps := rfl

theorem commandAnswers_fiveCommands (busy : Level) (j1 j2 j3 j4 j5 : Nat) :
    commandAnswers busy (fiveCommands j1 j2 j3 j4 j5) = fiveAnswers busy j1 j2 j3 j4 j5 := by
  simp [commandAnswers, fiveCommands, fiveAnswers]

theorem powerOnTrace_eq (variant : Variant) (busy : Level) (j1 j2 j3 j4 j5 : Nat) :
    powerOnTrace variant busy j1 j2 j3 j4 j5 =
      configureTrace ++ (loneTrace variant ++ initTrace busy (fiveCommands j1 j2 j3 j4 j5)) := by
  simp [powerOnTrace, fiveCommands, initTrace]

theorem powerOnLength_eq (variant : Variant) (j1 j2 j3 j4 j5 : Nat) :
    powerOnLength variant j1 j2 j3 j4 j5 =
      15 + (9 * (loneNibbles variant).length + commandSteps (fiveCommands j1 j2 j3 j4 j5)) := by
  cases variant <;> simp [powerOnLength, loneNibbles, commandSteps, fiveCommands] <;> omega

theorem afterCommands_fiveCommands (s : State) (j1 j2 j3 j4 j5 : Nat) (more : List Level) :
    afterCommands s (fiveCommands j1 j2 j3 j4 j5) more =
      { s with
        lines := linesAfterSend 0x0C
        trace := s.trace ++ initTrace s.params.busyLevel (fiveCommands j1 j2 j3 j4 j5)
        polls := pollsAfter s j5
        device := .script more } := by
  cases hlim : s.params.pollLimit <;>
    simp [fiveCommands, afterCommands, afterCommand, afterSend, initTrace, pollsAfter, hlim]

/-- The power-on sequence, run from any lines on a block whose geometry is written: the device answers the five handshakes within the bound,
and the block ends in the state of 10_state R42 (40_init_sequencer R132 to R137). -/
theorem run_sequence {q : Instr} {s : State} {more : List Level} (j1 j2 j3 j4 j5 : Nat)
    (hd : s.device = .script (fiveAnswers s.params.busyLevel j1 j2 j3 j4 j5 ++ more))
    (hb : ∀ j ∈ [j1, j2, j3, j4, j5], WithinBound s j) :
    run (powerOnLength s.variant j1 j2 j3 j4 j5) (settle q none (sequenceOps s.variant) s) = .next
      { s with
        lines := linesAfterSend 0x0C
        trace := s.trace ++ powerOnTrace s.variant s.params.busyLevel j1 j2 j3 j4 j5
        polls := pollsAfter s j5
        device := .script more
        func := 0x28
        dispctl := 0b100
        entry := 0b10
        seq := .idle } := by
  have hbound : ∀ x ∈ fiveCommands j1 j2 j3 j4 j5, WithinBound s x.2 := by simpa [fiveCommands] using hb
  obtain ⟨c, hc, hlone⟩ := run_settle_loneNibbles (q := q) (b := none) (loneNibbles s.variant)
    (rest := commandOps (fiveCommands j1 j2 j3 j4 j5) ++ [.shadows])
    (s := { s with lines := linesConfigured, trace := s.trace ++ configureTrace }) rfl
  have hcommands := run_settle_commands (q := q) (rest := [.shadows]) (more := more) (fiveCommands j1 j2 j3 j4 j5)
    (s := { s with lines := c, trace := s.trace ++ configureTrace ++ (loneNibbles s.variant).flatMap loneNibbleTrace })
    hc (by simpa [commandAnswers_fiveCommands] using hd) hbound
  have hrun := run_trans (run_settle_configure q none _ s) (run_trans hlone hcommands)
  rw [← powerOnLength_eq, commandOps_fiveCommands] at hrun
  rw [sequenceOps, hrun, afterCommands_fiveCommands, powerOnTrace_eq, loneTrace_eq_flatMap]
  simp [settle, State.withSequenceShadows, State.withSeq, funcAfterSequence, dispctlAfterSequence, entryAfterSequence,
    pollsAfter]

/-- BEGIN, and POWER_ON_SEQUENCE by itself, run to the state of 10_state R42 (40_init_sequencer R131, R132). -/
theorem exec_sequence_completes {i : Instr} {s : State} {cols rows : Byte} {more : List Level} (j1 j2 j3 j4 j5 : Nat)
    (hi : i = .beginInit cols rows ∨ i = .powerOnSequence cols rows) (hs : s.seq = .idle) (hc : s.constructed = true)
    (hd : s.device = .script (fiveAnswers s.params.busyLevel j1 j2 j3 j4 j5 ++ more))
    (hb : ∀ j ∈ [j1, j2, j3, j4, j5], WithinBound s j) :
    ∃ t, exec i s = .next t ∧
      run (powerOnLength s.variant j1 j2 j3 j4 j5) t = .next (afterPowerOn s s.trace cols rows j1 j2 j3 j4 j5 more) := by
  have hexec : exec i s = .next (start i (powerOnOps s.variant cols rows) s) := by
    obtain rfl | rfl := hi
    · exact takeRequest_of_ready hs hc
    · exact runProcedure_of_ready hs hc
  refine ⟨_, hexec, ?_⟩
  rw [start_powerOn]
  exact run_sequence (s := (s.withResult .empty).withGeometry cols rows) j1 j2 j3 j4 j5 hd hb

/-- CONSTRUCT runs to the state of 10_state R42 with its own variant, lines and a fresh trace (40_init_sequencer R130). -/
theorem exec_construct_completes {s : State} {ver : Byte} {rs rw e d0 d1 d2 d3 : LineId} {more : List Level}
    (j1 j2 j3 j4 j5 : Nat) (hs : s.seq = .idle) (hc : s.constructed = false) (hids : [rs, rw, e, d0, d1, d2, d3].Nodup)
    (hd : s.device = .script (fiveAnswers s.params.busyLevel j1 j2 j3 j4 j5 ++ more))
    (hb : ∀ j ∈ [j1, j2, j3, j4, j5], WithinBound s j) :
    ∃ t, exec (.construct ver rs rw e d0 d1 d2 d3) s = .next t ∧
      run (powerOnLength (if ver = 1 then .v1 else .v2) j1 j2 j3 j4 j5) t = .next
        (afterPowerOn
          { s with
            constructed := true
            variant := if ver = 1 then .v1 else .v2
            lineMap := { rs := rs, rw := rw, e := e, data0 := d0, data1 := d1, data2 := d2, data3 := d3 } }
          [] s.params.defaultCols s.params.defaultRows j1 j2 j3 j4 j5 more) :=
  ⟨_, execConstruct_of_nodup ver rs rw e d0 d1 d2 d3 hs hc hids,
    run_sequence (s := ((latchConstruct ver ⟨rs, rw, e, d0, d1, d2, d3⟩ s).withResult .empty).withGeometry
      s.params.defaultCols s.params.defaultRows) j1 j2 j3 j4 j5 hd hb⟩

end Sys2Proof.Safety
end

section
/-! SUPPORT. What the device latches of a transfer and of the power-on sequence, and that the machine shows it the bus words of each request
(20_memory R66, R67, R71; 30_encoding R91, R92). -/

namespace Sys2Proof.Safety

open Sys2Proof.Machine

/-! ## Strobes -/

@[simp] theorem drivenLevel_outputAt (v : Level) : drivenLevel (outputAt v) = some v := by
  cases v <;> rfl

@[simp] theorem levelBit_nibbleLevel (n : Nibble) (i : Nat) : levelBit (nibbleLevel n i) = n.getLsbD i := by
  cases h : n.getLsbD i <;> simp [nibbleLevel, h, levelBit]

theorem append_bits (n : Nibble) :
    BitVec.ofBool n[3] ++ BitVec.ofBool n[2] ++ BitVec.ofBool n[1] ++ BitVec.ofBool n[0] = n := by
  revert n
  decide

/-- The lines with a nibble put on the data lines and strobed (41_transfer R150). -/
def linesWithNibble (n : Nibble) (c : PerLine LineState) : PerLine LineState :=
  { c with
    e := outputAt .low, data0 := outputAt (nibbleLevel n 0), data1 := outputAt (nibbleLevel n 1),
    data2 := outputAt (nibbleLevel n 2), data3 := outputAt (nibbleLevel n 3) }

/-- What the device meets when a nibble is strobed from lines with RS and RW as in `c`. -/
def nibbleStrobe (n : Nibble) (c : PerLine LineState) : Strobe :=
  { rw := drivenLevel c.rw, rs := drivenLevel c.rs, nibble := some n }

/-- What the device meets at a strobe of the handshake: a read, the data lines not driven by the block (42_handshake R176). -/
def readStrobe : Strobe := { rw := some .high, rs := some .low, nibble := none }

theorem nibbleOnLines_linesWithNibble (n : Nibble) (c : PerLine LineState) (x : LineState) :
    nibbleOnLines { linesWithNibble n c with e := x } = some n := by
  simp [nibbleOnLines, linesWithNibble, append_bits]

theorem linesAfter_nibTrace (n : Nibble) {c : PerLine LineState} (h : linesDriven c = true) :
    linesAfter c (nibTrace n) = linesWithNibble n c := by
  obtain ⟨-, -, he, h0, h1, h2, h3⟩ := linesDriven_iff.mp h
  simp [nibTrace, applyEvent, setLines, PerLine.get, PerLine.put, linesWithNibble, outputAt, he, h0, h1, h2, h3]

theorem strobes_nibTrace (n : Nibble) {c : PerLine LineState} (h : linesDriven c = true) :
    strobes c (nibTrace n) = [nibbleStrobe n c] := by
  obtain ⟨-, -, he, h0, h1, h2, h3⟩ := linesDriven_iff.mp h
  have hn := nibbleOnLines_linesWithNibble n c (outputAt .high)
  simp only [linesWithNibble, outputAt, driveLevel] at hn
  simp [nibTrace, strobes, strobeOf, applyEvent, setLines, PerLine.get, PerLine.put, outputAt, driveLevel, he, h0, h1, h2,
    h3, nibbleStrobe, hn]

theorem linesAfter_iterTrace (b : Level) {c : PerLine LineState} (h : linesPolling c = true) :
    linesAfter c (iterTrace b) = c := by
  obtain ⟨he, -⟩ := linesPolling_e_data3 h
  cases c
  cases he
  rfl

/-- The E pulses of one iteration are two reads (42_handshake R171, R176). -/
theorem strobes_iterTrace (b : Level) {c : PerLine LineState} (h : linesDriven c = true) :
    strobes (linesInHandshake c) (iterTrace b) = [readStrobe, readStrobe] := by
  obtain ⟨-, -, he, -, -, -, -⟩ := linesDriven_iff.mp h
  simp [iterTrace, strobes, strobeOf, applyEvent, setLines, PerLine.get, PerLine.put, linesInHandshake, outputAt, driveLevel,
    he, readStrobe, drivenLevel, nibbleOnLines]

theorem linesAfter_iterTraces (bs : List Level) {c : PerLine LineState} (h : linesPolling c = true) :
    linesAfter c (bs.flatMap iterTrace) = c := by
  induction bs with
  | nil => rfl
  | cons b bs ih => rw [List.flatMap_cons, linesAfter_append, linesAfter_iterTrace b h, ih]

theorem strobes_iterTraces (bs : List Level) {c : PerLine LineState} (h : linesDriven c = true) :
    strobes (linesInHandshake c) (bs.flatMap iterTrace) = List.replicate (2 * bs.length) readStrobe := by
  induction bs with
  | nil => rfl
  | cons b bs ih =>
    rw [List.flatMap_cons, strobes_append, linesAfter_iterTrace b (linesPolling_linesInHandshake h), ih,
      strobes_iterTrace b h]
    rfl

theorem linesAfter_handshakeEntry {c : PerLine LineState} (h : linesDriven c = true) :
    linesAfter c [.dir .data3 .input, .set .rs .low, .set .rw .high] = linesInHandshake c := by
  obtain ⟨hrs, hrw, -, -, -, -, -⟩ := linesDriven_iff.mp h
  simp [applyEvent, dirLines, setLines, PerLine.get, PerLine.put, linesInHandshake, outputAt, dirState, hrs, hrw]

theorem linesAfter_handshakeTrace (bs : List Level) {c : PerLine LineState} (h : linesDriven c = true) :
    linesAfter c (handshakeTrace bs) = linesAfterHandshake c := by
  rw [handshakeTrace, linesAfter_append, linesAfter_append, linesAfter_handshakeEntry h,
    linesAfter_iterTraces bs (linesPolling_linesInHandshake h)]
  simp [applyEvent, dirLines, setLines, PerLine.get, PerLine.put, linesInHandshake, linesAfterHandshake, outputAt, dirState]

/-- The handshake's E pulses are two reads for each iteration (42_handshake R176). -/
theorem strobes_handshakeTrace (bs : List Level) {c : PerLine LineState} (h : linesDriven c = true) :
    strobes c (handshakeTrace bs) = List.replicate (2 * bs.length) readStrobe := by
  rw [handshakeTrace, strobes_append, strobes_append, linesAfter_handshakeEntry h, strobes_iterTraces bs h,
    strobes_of_no_isEEvent (by decide), strobes_of_no_isEEvent (by decide), List.nil_append, List.append_nil]

/-! ## A transfer -/

/-- The lines once SEND has set RS to the mode and RW Low (41_transfer R152). -/
def linesAtMode (m : Level) (c : PerLine LineState) : PerLine LineState :=
  { c with rs := outputAt m, rw := outputAt .low }

section Transfer

variable {c : PerLine LineState} (h : linesDriven c = true)

include h

theorem linesDriven_linesAtMode (m : Level) : linesDriven (linesAtMode m c) = true := by
  obtain ⟨-, -, hrest⟩ := linesDriven_iff.mp h
  exact linesDriven_iff.mpr ⟨rfl, rfl, hrest⟩

theorem linesAfter_mode (m : Level) : linesAfter c [.set .rs m, .set .rw .low] = linesAtMode m c := by
  obtain ⟨hrs, hrw, -⟩ := linesDriven_iff.mp h
  simp [applyEvent, setLines, PerLine.get, PerLine.put, linesAtMode, outputAt, hrs, hrw]

theorem linesAfter_sendTrace (v : Byte) (m : Level) (bs : List Level) : linesAfter c (sendTrace v m bs) = linesAfterSend v := by
  rw [sendTrace, linesAfter_append, linesAfter_append, linesAfter_append, linesAfter_mode h,
    linesAfter_nibTrace _ (linesDriven_linesAtMode h m), linesAfter_nibTrace _ rfl]
  exact linesAfter_handshakeTrace bs (linesDriven_linesAfterNibbles v m)

/-- A transfer strobes the high nibble, the low one, and twice for each poll iteration (30_encoding R92; 42_handshake R176). -/
theorem strobes_sendTrace (v : Byte) (m : Level) (bs : List Level) :
    strobes c (sendTrace v m bs) =
      { rw := some .low, rs := some m, nibble := some (highNibble v) }
        :: { rw := some .low, rs := some m, nibble := some (lowNibble v) }
        :: List.replicate (2 * bs.length) readStrobe := by
  have hmode := linesDriven_linesAtMode h m
  have hlow : strobes (linesWithNibble (highNibble v) (linesAtMode m c)) (nibTrace (lowNibble v)) = _ :=
    strobes_nibTrace _ rfl
  have hlines : linesWithNibble (lowNibble v) (linesWithNibble (highNibble v) (linesAtMode m c)) = linesAfterNibbles v m := rfl
  simp only [sendTrace, strobes_append, linesAfter_append]
  rw [linesAfter_mode h, linesAfter_nibTrace _ hmode, linesAfter_nibTrace _ rfl, strobes_of_no_isEEvent (by simp [isEEvent]),
    strobes_nibTrace _ hmode, hlow, hlines, strobes_handshakeTrace bs (linesDriven_linesAfterNibbles v m)]
  simp [nibbleStrobe, linesAtMode, linesWithNibble]

theorem writtenNibbles_sendTrace (v : Byte) (m : Level) (bs : List Level) :
    writtenNibbles c (sendTrace v m bs) = wordNibbles (busWord m v) := by
  simp [writtenNibbles, strobes_sendTrace h, strobeWrite, readStrobe, wordNibbles]

end Transfer

/-! ## Traces of several transfers -/

theorem writtenNibbles_append (c : PerLine LineState) (t u : List Event) :
    writtenNibbles c (t ++ u) = writtenNibbles c t ++ writtenNibbles (linesAfter c t) u := by
  simp [writtenNibbles, strobes_append]

theorem writtenNibbles_wait (c : PerLine LineState) (us : Nat) : writtenNibbles c [.wait us] = [] := rfl

theorem writtenNibbles_transfersTrace (busy : Level) (xs : List ((Byte × Level) × Nat)) {c : PerLine LineState}
    (h : linesDriven c = true) :
    writtenNibbles c (transfersTrace busy xs) = xs.flatMap fun x => wordNibbles (busWord x.1.2 x.1.1) := by
  induction xs generalizing c with
  | nil => rfl
  | cons x xs ih =>
    rw [transfersTrace, writtenNibbles_append, writtenNibbles_sendTrace h, linesAfter_sendTrace h, ih rfl,
      List.flatMap_cons]

theorem writtenNibbles_initTrace (busy : Level) (xs : List (Byte × Nat)) {c : PerLine LineState} (h : linesDriven c = true) :
    writtenNibbles c (initTrace busy xs) = xs.flatMap fun x => wordNibbles (busWord .low x.1) := by
  induction xs generalizing c with
  | nil => rfl
  | cons x xs ih =>
    rw [initTrace, writtenNibbles_append, writtenNibbles_append, writtenNibbles_sendTrace h, writtenNibbles_wait,
      linesAfter_append, linesAfter_sendTrace h, List.append_nil, List.flatMap_cons]
    exact congrArg _ (ih rfl)

/-! ## The power-on sequence -/

theorem linesIdle_linesWithNibble (n : Nibble) {c : PerLine LineState} (h : linesIdle c = true) :
    linesIdle (linesWithNibble n c) = true := by
  obtain ⟨hd, hrs, hrw⟩ := linesIdle_iff.mp h
  obtain ⟨hrsd, hrwd, -⟩ := linesDriven_iff.mp hd
  exact linesIdle_iff.mpr ⟨linesDriven_iff.mpr ⟨hrsd, hrwd, rfl, rfl, rfl, rfl, rfl⟩, hrs, hrw⟩

theorem linesAfter_loneNibbleTrace (n : Nibble) {c : PerLine LineState} (h : linesIdle c = true) :
    linesAfter c (loneNibbleTrace n) = linesWithNibble n c := by
  rw [loneNibbleTrace, linesAfter_append, linesAfter_nibTrace n (linesDriven_of_linesIdle h)]
  rfl

theorem writtenNibbles_loneNibbleTrace (n : Nibble) {c : PerLine LineState} (h : linesIdle c = true) :
    writtenNibbles c (loneNibbleTrace n) = [(.low, n)] := by
  obtain ⟨hd, hrs, hrw⟩ := linesIdle_iff.mp h
  obtain ⟨hrsd, hrwd, -⟩ := linesDriven_iff.mp hd
  rw [loneNibbleTrace, writtenNibbles_append, writtenNibbles_wait, writtenNibbles, strobes_nibTrace n hd]
  simp [nibbleStrobe, drivenLevel, strobeWrite, hrs, hrw, hrsd, hrwd]

theorem loneNibbleTraces_written (ns : List Nibble) {c : PerLine LineState} (h : linesIdle c = true) :
    linesIdle (linesAfter c (ns.flatMap loneNibbleTrace)) = true ∧
      writtenNibbles c (ns.flatMap loneNibbleTrace) = ns.map fun n => (.low, n) := by
  induction ns generalizing c with
  | nil => exact ⟨h, rfl⟩
  | cons n ns ih =>
    obtain ⟨hidle, hwritten⟩ := ih (linesIdle_linesWithNibble n h)
    rw [List.flatMap_cons, linesAfter_append, writtenNibbles_append, linesAfter_loneNibbleTrace n h, hwritten,
      writtenNibbles_loneNibbleTrace n h]
    exact ⟨hidle, rfl⟩

theorem loneWrites_eq_map (variant : Variant) : loneWrites variant = (loneNibbles variant).map fun n => (.low, n) := by
  cases variant <;> rfl

/-- Steps 1 and 2 leave every line an output at Low and strobe nothing, from any lines with E not High (40_init_sequencer R133). -/
theorem configureTrace_written {c : PerLine LineState} (h : c.e.lvl ≠ .high) :
    linesAfter c configureTrace = linesConfigured ∧ writtenNibbles c configureTrace = [] := by
  by_cases hd : c.e.dir = .output <;>
    simp [configureTrace, writtenNibbles, strobes, strobeOf, applyEvent, dirLines, setLines, PerLine.get, PerLine.put,
      linesConfigured, outputAt, dirState, h, hd]

theorem fiveCommands_words (j1 j2 j3 j4 j5 : Nat) :
    (fiveCommands j1 j2 j3 j4 j5).map (fun x => busWord .low x.1) = [0x008, 0x001, 0x006, 0x002, 0x00C] := by
  simp only [fiveCommands, List.map_cons, List.map_nil]
  decide

theorem writtenNibbles_powerOnTrace (variant : Variant) (busy : Level) (j1 j2 j3 j4 j5 : Nat) {c : PerLine LineState}
    (h : c.e.lvl ≠ .high) :
    writtenNibbles c (powerOnTrace variant busy j1 j2 j3 j4 j5) =
      loneWrites variant ++ ([0x008, 0x001, 0x006, 0x002, 0x00C] : List BusWord).flatMap wordNibbles := by
  obtain ⟨hlines, hconfigure⟩ := configureTrace_written h
  obtain ⟨hidle, hlone⟩ := loneNibbleTraces_written (loneNibbles variant) (c := linesConfigured) rfl
  rw [powerOnTrace_eq, writtenNibbles_append, writtenNibbles_append, hlines, hconfigure, loneTrace_eq_flatMap, hlone,
    writtenNibbles_initTrace _ _ (linesDriven_of_linesIdle hidle), ← loneWrites_eq_map, List.nil_append,
    ← fiveCommands_words j1 j2 j3 j4 j5, List.flatMap_map]

/-! ## Nibbles and bus words -/

theorem highNibble_append_lowNibble (v : Byte) : highNibble v ++ lowNibble v = v := by
  ext i hi
  rw [BitVec.getElem_append]
  split_ifs with hlow
  · simp [lowNibble, BitVec.getLsbD_eq_getElem hi]
  · simp [highNibble, show 4 + (i - 4) = i by omega, BitVec.getLsbD_eq_getElem hi]

theorem busWord_mode_byte (w : BusWord) : busWord (busWordMode w) (busWordByte w) = w := by
  ext i hi
  obtain hlt | rfl : i < 8 ∨ i = 8 := by omega
  · simp [getElem_busWord, hlt, busWordByte, BitVec.getLsbD_eq_getElem hi]
  · cases hw : w[8] <;> simp [getElem_busWord_mode, busWordMode, hw]

/-- The nibbles of whole words, paired, are the words again (20_memory R67, R70). -/
theorem pairNibbles_flatMap_wordNibbles (ws : List BusWord) : pairNibbles (ws.flatMap wordNibbles) = ws := by
  induction ws with
  | nil => rfl
  | cons w ws ih =>
    rw [List.flatMap_cons, wordNibbles, List.cons_append, List.cons_append, List.nil_append, pairNibbles, ih,
      highNibble_append_lowNibble, busWord_mode_byte]

/-! ## The transfers of bus words -/

/-- The transfer of a bus word: its byte and its RS level (30_encoding R91). -/
def wordTransfer (w : BusWord) : Byte × Level := (busWordByte w, busWordMode w)

/-- SEND of a bus word. -/
def wordOps (w : BusWord) : List Op := sendOps (busWordByte w) (busWordMode w)

@[simp] theorem wordOps_busWord (m : Level) (v : Byte) : wordOps (busWord m v) = sendOps v m := by
  simp [wordOps]

theorem sum_sendSteps (js : List Nat) : (js.map fun j => 31 + 8 * j).sum = 31 * js.length + 8 * js.sum := by
  induction js with
  | nil => rfl
  | cons j js ih =>
    rw [List.map_cons, List.sum_cons, ih, List.length_cons, List.sum_cons]
    omega

section WordTransfers

variable {ws : List BusWord} {js : List Nat} (hlen : js.length = ws.length)

include hlen

theorem map_fst_zip_wordTransfer : ((ws.map wordTransfer).zip js).map Prod.fst = ws.map wordTransfer :=
  List.map_fst_zip (by simp [hlen])

theorem map_snd_zip_wordTransfer : ((ws.map wordTransfer).zip js).map Prod.snd = js :=
  List.map_snd_zip (by simp [hlen])

theorem transferOps_words : transferOps ((ws.map wordTransfer).zip js) = ws.flatMap wordOps := by
  have hfst := congrArg (List.flatMap fun x => sendOps x.1 x.2) (map_fst_zip_wordTransfer hlen)
  rw [List.flatMap_map, List.flatMap_map] at hfst
  exact hfst

theorem transferAnswers_words (busy : Level) :
    transferAnswers busy ((ws.map wordTransfer).zip js) = js.flatMap (pollAnswers busy) := by
  have hsnd := congrArg (List.flatMap (pollAnswers busy)) (map_snd_zip_wordTransfer hlen)
  rw [List.flatMap_map] at hsnd
  exact hsnd

theorem transferSteps_words : transferSteps ((ws.map wordTransfer).zip js) = 31 * js.length + 8 * js.sum := by
  have hsnd := congrArg (fun js => (js.map fun j => 31 + 8 * j).sum) (map_snd_zip_wordTransfer hlen)
  rw [List.map_map] at hsnd
  exact hsnd.trans (sum_sendSteps js)

theorem writtenNibbles_words (busy : Level) {c : PerLine LineState} (h : linesDriven c = true) :
    writtenNibbles c (transfersTrace busy ((ws.map wordTransfer).zip js)) = ws.flatMap wordNibbles := by
  have hfst := congrArg (List.flatMap fun x => wordNibbles (busWord x.2 x.1)) (map_fst_zip_wordTransfer hlen)
  rw [List.flatMap_map, List.flatMap_map] at hfst
  rw [writtenNibbles_transfersTrace busy _ h, hfst]
  simp only [wordTransfer, busWord_mode_byte]

end WordTransfers

/-! ## The requests of the opcode table -/

theorem busWords_of_expansion {i : Instr} {s s1 : State} {v : Byte} (h : expansion s i = some (s1, v)) :
    busWords s.numLines s.dispctl s.entry i = [busWord .low v] := by
  cases i with
  | setCursor col row =>
    have hcmd := ddramCmd_eq s.numLines col row
    simp only [expansion] at h
    split at h
    · next off hoff =>
      cases h
      rw [hoff, Option.map_some] at hcmd
      rw [busWords, hcmd]
      rfl
    · cases h
  | _ => cases h <;> rfl

/-- The block as a request finds it, but for registers that no line shows. -/
structure SameBus (s t : State) : Prop where
  lines_eq : t.lines = s.lines
  trace_eq : t.trace = s.trace
  params_eq : t.params = s.params
  device_eq : t.device = s.device

/-- What follows the transfers of a request: nothing, or WRITE's return (41_transfer R154). -/
def IsTail (ops : List Op) : Prop := ops = [] ∨ ops = [.returnOne]

/-- `exec` of `i` at `s` goes to the transfers of the bus words `ws`. -/
def SendsWords (i : Instr) (s : State) (ws : List BusWord) : Prop :=
  ∃ s' tail, exec i s = .next (settle i none (ws.flatMap wordOps ++ tail) s') ∧ SameBus s s' ∧ IsTail tail

theorem sendsWords_of_start {i : Instr} {s s' : State} {ws : List BusWord} {ops tail : List Op}
    (h : exec i s = .next (start i ops s')) (hops : ops = ws.flatMap wordOps ++ tail) (hbus : SameBus s s')
    (htail : IsTail tail) : SendsWords i s ws :=
  ⟨s'.withResult .empty, tail, hops ▸ h, ⟨hbus.lines_eq, hbus.trace_eq, hbus.params_eq, hbus.device_eq⟩, htail⟩

theorem sendsWords_of_expansion {i : Instr} {s s1 : State} {v : Byte} (hs : s.seq = .idle) (hc : s.constructed = true)
    (h : expansion s i = some (s1, v)) : SendsWords i s (busWords s.numLines s.dispctl s.entry i) := by
  have hbus : SameBus s s1 := by
    rw [expansion_frame h]
    exact ⟨rfl, rfl, rfl, rfl⟩
  refine sendsWords_of_start (exec_of_expansion hs hc h) ?_ hbus (.inl rfl)
  simp [busWords_of_expansion h]

/-- A SET_CURSOR whose clamped row has no offset sends nothing (30_encoding R95). -/
theorem sendsWords_setCursor (col row : Byte) {s : State} (hs : s.seq = .idle) (hc : s.constructed = true) :
    SendsWords (.setCursor col row) s (busWords s.numLines s.dispctl s.entry (.setCursor col row)) := by
  rw [busWords]
  cases hv : ddramCmd s.numLines col row with
  | none =>
    exact ⟨s.addRecord (.fault (.rowOffsetOutOfTable row)), [], exec_setCursor_of_no_offset hs hc hv, ⟨rfl, rfl, rfl, rfl⟩,
      .inl rfl⟩
  | some v => exact sendsWords_of_start (exec_setCursor_of_offset hs hc hv) (by simp) ⟨rfl, rfl, rfl, rfl⟩ (.inl rfl)

/-- A request of the opcode table goes to the transfers of its bus words (30_encoding R99, R105). -/
theorem sendsWords_busWords {i : Instr} {s : State} (hrow : tableRow i ≠ none) (hs : s.seq = .idle)
    (hc : s.constructed = true) : SendsWords i s (busWords s.numLines s.dispctl s.entry i) := by
  have hsame : SameBus s s := ⟨rfl, rfl, rfl, rfl⟩
  cases hexp : expansion s i with
  | some r => exact sendsWords_of_expansion hs hc hexp
  | none =>
    cases i with
    | command v => exact sendsWords_of_start (takeRequest_of_ready hs hc) (by simp [busWords]) hsame (.inl rfl)
    | write v => exact sendsWords_of_start (takeRequest_of_ready hs hc) (by simp [busWords]) hsame (.inr rfl)
    | send v mode => exact sendsWords_of_start (runProcedure_of_ready hs hc) (by simp [busWords]) hsame (.inl rfl)
    | createChar slot bitmap =>
      exact sendsWords_of_start (takeRequest_of_ready hs hc) (by simp [busWords, List.flatMap_map]) hsame (.inl rfl)
    | setCursor col row => exact sendsWords_setCursor col row hs hc
    | construct ver rs rw e d0 d1 d2 d3 => exact absurd rfl hrow
    | beginInit cols rows => exact absurd rfl hrow
    | write4bits n => exact absurd rfl hrow
    | pulseEnable => exact absurd rfl hrow
    | waitForReady => exact absurd rfl hrow
    | powerOnSequence cols rows => exact absurd rfl hrow
    | _ => cases hexp

theorem settle_tail_seq {ops : List Op} (h : IsTail ops) (q : Instr) (s : State) : (settle q none ops s).seq = .idle := by
  obtain rfl | rfl := h
  · rfl
  · rfl

/-- The transfers of the words run to their end, and the device is shown those words. -/
theorem SendsWords.observed {i : Instr} {s : State} {ws : List BusWord} {js : List Nat} {more : List Level}
    (h : SendsWords i s ws) (hl : linesDriven s.lines = true) (hlen : js.length = ws.length)
    (hb : ∀ j ∈ js, WithinBound s j) (hd : s.device = .script (js.flatMap (pollAnswers s.params.busyLevel) ++ more)) :
    ∃ (t u : State) (evs : List Event), exec i s = .next t ∧ run (31 * js.length + 8 * js.sum) t = .next u ∧
      u.seq = .idle ∧ u.trace = s.trace ++ evs ∧ observedBusWords s.lines evs = ws := by
  obtain ⟨s', tail, hexec, ⟨hlines, htrace, hparams, hdevice⟩, htail⟩ := h
  have hb' : ∀ x ∈ (ws.map wordTransfer).zip js, WithinBound s' x.2 := fun x hx k hk =>
    hb x.2 (List.of_mem_zip hx).2 k (hparams ▸ hk)
  have hrun := run_settle_transfers (q := i) (rest := tail) (more := more) ((ws.map wordTransfer).zip js)
    (hlines ▸ hl) (by rw [hdevice, hd, hparams, transferAnswers_words hlen]) hb'
  rw [transferOps_words hlen, transferSteps_words hlen] at hrun
  refine ⟨_, _, transfersTrace s.params.busyLevel ((ws.map wordTransfer).zip js), hexec, hrun, settle_tail_seq htail _ _,
    ?_, ?_⟩
  · rw [settle_trace, afterTransfers_trace, htrace, hparams]
  · rw [observedBusWords, writtenNibbles_words hlen _ hl, pairNibbles_flatMap_wordNibbles]

/-! ## The obligation -/

theorem samples_iterTraces (bs : List Level) : samples (bs.flatMap iterTrace) = bs.map fun b => (.data3, b) := by
  induction bs with
  | nil => rfl
  | cons b bs ih =>
    rw [List.flatMap_cons, samples_append, ih]
    rfl

theorem samples_sendTrace (v : Byte) (m : Level) (bs : List Level) :
    samples (sendTrace v m bs) = bs.map fun b => (.data3, b) := by
  simp only [sendTrace, handshakeTrace, samples_append, samples_iterTraces, nibTrace, samples, List.nil_append,
    List.append_nil]

theorem reads_sendTrace {c : PerLine LineState} (h : linesDriven c = true) (v : Byte) (m : Level) (bs : List Level) :
    ((strobes c (sendTrace v m bs)).filter fun x => x.rw == some .high).length = 2 * bs.length := by
  simp [strobes_sendTrace h, readStrobe]

/-- Settles O53: a transfer's strobes, then the transfers that each request and each sequence is made of. -/
theorem transferShowsItsBusWord : Obligations.TransferShowsItsBusWord := by
  refine ⟨fun c v m bs hidle => ?_, fun i s js more hready hrow hlen hb hd => ?_,
    fun i s cols rows j1 j2 j3 j4 j5 more hready hi hd hb => ?_,
    fun s ver rs rw e d0 d1 d2 d3 j1 j2 j3 j4 j5 more hs hc hids hd hb => ?_⟩
  · have hl := linesDriven_of_linesIdle hidle
    have hwritten := writtenNibbles_sendTrace hl v m bs
    refine ⟨?_, ?_, reads_sendTrace hl v m bs, samples_sendTrace v m bs⟩
    · simpa [wordNibbles, highNibble, lowNibble] using hwritten
    · rw [observedBusWords, hwritten]
      simpa using pairNibbles_flatMap_wordNibbles [busWord m v]
  · obtain ⟨hs, hc, hidle⟩ := hready
    exact (sendsWords_busWords hrow hs hc).observed (linesDriven_of_linesIdle hidle) hlen hb hd
  · obtain ⟨hs, hc, hidle⟩ := hready
    obtain ⟨t, ht, hrun⟩ := exec_sequence_completes j1 j2 j3 j4 j5 hi hs hc hd hb
    refine ⟨t, _, _, ht, hrun, rfl, rfl, ?_⟩
    rw [writtenNibbles_powerOnTrace _ _ _ _ _ _ _ (e_ne_high_of_linesIdle hidle)]
    obtain rfl | rfl := hi
    · rfl
    · rfl
  · obtain ⟨t, ht, hrun⟩ := exec_construct_completes j1 j2 j3 j4 j5 hs hc hids hd hb
    refine ⟨t, _, ht, hrun, rfl, ?_⟩
    exact writtenNibbles_powerOnTrace _ _ _ _ _ _ _ (show unconfiguredLines.e.lvl ≠ .high by decide)

end Sys2Proof.Safety
end

section
/-! SUPPORT. CONSTRUCT's refusals, and the power-on sequence's end state and event counts (40_init_sequencer R130, R136, R138). -/

namespace Sys2Proof.Safety

open Sys2Proof.Machine

/-! ## The line-map check -/

theorem nodup_duplicatedIds (l : List LineId) : (duplicatedIds l).Nodup := by
  induction l with
  | nil => exact List.nodup_nil
  | cons y ys ih =>
    rw [duplicatedIds]
    split
    · next h => exact List.nodup_cons.mpr ⟨h.2, ih⟩
    · exact ih

theorem mem_duplicatedIds_cons {x y : LineId} {ys : List LineId} :
    x ∈ duplicatedIds (y :: ys) ↔ (x = y ∧ y ∈ ys) ∨ x ∈ duplicatedIds ys := by
  rw [duplicatedIds]
  split
  · next h => simp [h.1]
  · next h =>
    refine ⟨.inr, fun hx => hx.elim ?_ id⟩
    rintro ⟨rfl, hmem⟩
    by_contra hnot
    exact h ⟨hmem, hnot⟩

/-- An id is found duplicated exactly where it is used twice or more (60_exceptions R242). -/
theorem mem_duplicatedIds_iff {x : LineId} {l : List LineId} : x ∈ duplicatedIds l ↔ 2 ≤ l.count x := by
  induction l with
  | nil => simp [duplicatedIds]
  | cons y ys ih =>
    rw [mem_duplicatedIds_cons, ih]
    by_cases hxy : x = y
    · subst hxy
      rw [List.count_cons_self, eq_self, true_and, ← List.one_le_count_iff]
      omega
    · rw [List.count_cons_of_ne (Ne.symm hxy)]
      simp [hxy]

/-! ## CONSTRUCT's refusals -/

section Construct

variable {s : State} (ver : Byte) (rs rw e d0 d1 d2 d3 : LineId)

theorem execConstruct_of_constructed (hs : s.seq = .idle) (hc : s.constructed = true) :
    execConstruct ver rs rw e d0 d1 d2 d3 s = .next (endWithRecord (.refusal .constructTwice) s) := by
  simp [execConstruct, hs, hc]

theorem execConstruct_of_not_nodup (hs : s.seq = .idle) (hc : s.constructed = false)
    (hids : ¬ [rs, rw, e, d0, d1, d2, d3].Nodup) :
    execConstruct ver rs rw e d0 d1 d2 d3 s =
      .next (endWithRecord (.refusal (.duplicateLine (duplicatedIds [rs, rw, e, d0, d1, d2, d3]))) s) := by
  obtain ⟨d, ds, hd⟩ := List.exists_cons_of_ne_nil (mt duplicatedIds_eq_nil_iff.mp hids)
  simp [execConstruct, hs, hc, hd]

end Construct

theorem endWithRecord_of_idle {s : State} (r : Record) (hs : s.seq = .idle) :
    endWithRecord r s = { s with records := s.records ++ [r] } := by
  simp [endWithRecord, State.withSeq, State.addRecord, ← hs]

/-- Settles O13: the ids recorded are those that the line-map check finds. -/
theorem duplicateLineIsRefused : Obligations.DuplicateLineIsRefused := by
  intro s ver rs rw e d0 d1 d2 d3 hs hc hids
  refine ⟨duplicatedIds [rs, rw, e, d0, d1, d2, d3], mt duplicatedIds_eq_nil_iff.mp hids, nodup_duplicatedIds _,
    fun x => mem_duplicatedIds_iff, ?_⟩
  rw [← endWithRecord_of_idle _ hs]
  exact execConstruct_of_not_nodup ver rs rw e d0 d1 d2 d3 hs hc hids

/-- Settles O12: a built block does not look at the operands. -/
theorem secondConstructIsRefused : Obligations.SecondConstructIsRefused := by
  intro s ver rs rw e d0 d1 d2 d3 hs hc
  rw [← endWithRecord_of_idle _ hs]
  exact execConstruct_of_constructed ver rs rw e d0 d1 d2 d3 hs hc

/-! ## The power-on sequence to its end -/

/-- Settles O16: the latched block runs its sequence from unconfigured lines. -/
theorem constructCompletes : Obligations.ConstructCompletes := by
  intro s ver rs rw e d0 d1 d2 d3 j1 j2 j3 j4 j5 more hs hc hids hd h1 h2 h3 h4 h5
  exact exec_construct_completes j1 j2 j3 j4 j5 hs hc hids hd (by simp [h1, h2, h3, h4, h5])

/-- Settles O17: the sequence configures every line before it drives it, so it runs from any lines. -/
theorem beginCompletes : Obligations.BeginCompletes := by
  intro s i cols rows j1 j2 j3 j4 j5 more hi hs hc hd h1 h2 h3 h4 h5
  exact exec_sequence_completes j1 j2 j3 j4 j5 hi hs hc hd (by simp [h1, h2, h3, h4, h5])

theorem step_last_wait {s : State} {q : Instr} {b : Option Level} (hs : s.seq = .running q [opWait 5000, .shadows] b) :
    step s = .next ((waitUs 5000 s).withSequenceShadows.withSeq .idle) :=
  step_of_perform_ok hs rfl

/-- The sequence ends with the last command's wait and step 9 (40_init_sequencer R135, R136). -/
theorem powerOnOps_eq_append (variant : Variant) (cols rows : Byte) :
    ∃ pre, powerOnOps variant cols rows = pre ++ [opWait 5000, .shadows] := by
  refine ⟨[.geometry cols rows] ++ controlLineOps ++ dataLineOps ++ (loneNibbles variant).flatMap loneNibbleOps
    ++ [0x08, 0x01, 0x06, 0x02].flatMap initCommandOps ++ sendOps 0x0C .low, ?_⟩
  simp [powerOnOps, initCommands, initCommandOps, Config.tInit]

/-- Settles O18: the last wait's step goes on to step 9, which leaves nothing of the microprogram. -/
theorem sequenceSetsTheShadows : Obligations.SequenceSetsTheShadows :=
  ⟨fun _ _ _ hs => step_last_wait hs, powerOnOps_eq_append, rfl, rfl⟩

/-! ## Event counts -/

@[simp] theorem length_pollAnswers (busy : Level) (j : Nat) : (pollAnswers busy j).length = j + 1 := by
  simp [pollAnswers]

theorem length_iterTraces (bs : List Level) : (bs.flatMap iterTrace).length = 8 * bs.length := by
  induction bs with
  | nil => rfl
  | cons b bs ih =>
    rw [List.flatMap_cons, List.length_append, ih, List.length_cons, iterTrace]
    simp only [List.length_cons, List.length_nil]
    omega

theorem length_sendTrace (v : Byte) (m : Level) (bs : List Level) : (sendTrace v m bs).length = 23 + 8 * bs.length := by
  simp only [sendTrace, nibTrace, handshakeTrace, List.length_append, List.length_cons, List.length_nil, length_iterTraces]
  omega

/-- A step-8 command takes one step per event (40_init_sequencer R135). -/
theorem length_initTrace (busy : Level) (xs : List (Byte × Nat)) : (initTrace busy xs).length = commandSteps xs := by
  induction xs with
  | nil => rfl
  | cons x xs ih =>
    obtain ⟨v, j⟩ := x
    have hsteps : commandSteps ((v, j) :: xs) = 32 + 8 * j + commandSteps xs := by simp [commandSteps]
    simp only [initTrace, List.length_append, length_sendTrace, length_pollAnswers, List.length_singleton, ih, hsteps]
    omega

theorem length_loneTrace (variant : Variant) : (loneTrace variant).length = 9 * (loneNibbles variant).length := by
  cases variant <;> rfl

/-- The count of R138 is the length of the written-out trace. -/
theorem length_powerOnTrace (variant : Variant) (busy : Level) (j1 j2 j3 j4 j5 : Nat) :
    (powerOnTrace variant busy j1 j2 j3 j4 j5).length = powerOnLength variant j1 j2 j3 j4 j5 := by
  rw [powerOnTrace_eq, powerOnLength_eq, List.length_append, List.length_append, length_loneTrace, length_initTrace]
  rfl

theorem length_samples_initTrace (busy : Level) (xs : List (Byte × Nat)) :
    (samples (initTrace busy xs)).length = (xs.map fun x => x.2 + 1).sum := by
  induction xs with
  | nil => rfl
  | cons x xs ih =>
    obtain ⟨v, j⟩ := x
    simp [initTrace, samples_append, samples_sendTrace, samples, ih, Nat.add_assoc]

/-- No sample is taken before the first command of step 8 (40_init_sequencer R133, R134). -/
theorem samples_before_commands (variant : Variant) : samples (configureTrace ++ loneTrace variant) = [] := by
  cases variant <;> rfl

theorem length_samples_powerOnTrace (variant : Variant) (busy : Level) (j1 j2 j3 j4 j5 : Nat) :
    (samples (powerOnTrace variant busy j1 j2 j3 j4 j5)).length
      = (j1 + 1) + (j2 + 1) + (j3 + 1) + (j4 + 1) + (j5 + 1) := by
  rw [powerOnTrace_eq, ← List.append_assoc, samples_append, samples_before_commands, List.nil_append,
    length_samples_initTrace]
  simp [fiveCommands, Nat.add_assoc]

/-- Settles O19: the counts of the pieces, and of the sequence that they make up. -/
theorem powerOnEventCounts : Obligations.PowerOnEventCounts := by
  refine ⟨rfl, length_loneTrace .v1, length_loneTrace .v2, fun v bs => ?_, fun busy j1 j2 j3 j4 j5 =>
    ⟨length_powerOnTrace .v1 busy j1 j2 j3 j4 j5, length_powerOnTrace .v2 busy j1 j2 j3 j4 j5, fun variant =>
      length_samples_powerOnTrace variant busy j1 j2 j3 j4 j5⟩⟩
  rw [List.length_append, length_sendTrace, List.length_singleton]
  omega

end Sys2Proof.Safety
end

section
/-! SUPPORT. The lines while E is High, and the transfer requests run to their end: SEND, COMMAND and WRITE, a lone nibble and a lone strobe
(41_transfer R150 to R155). -/

namespace Sys2Proof.Safety

open Sys2Proof.Machine

/-! ## E High -/

/-- A primitive of a safe microprogram moves no line but E while E is High (41_transfer R155). -/
theorem perform_lines_of_e_high {s t : State} {p : Prim} {rest : List Op} {b b' : Option Level}
    (hsafe : opsSafe s.lines (.bus p :: rest) = true) (he : s.lines.e.lvl = .high) (hp : perform p b s = .ok (b', t))
    {l : Line} (hl : l ≠ .e) : PerLine.get t.lines l = PerLine.get s.lines l := by
  cases p with
  | dir l' d => exact absurd he (opsSafe_dir_iff.mp hsafe).1
  | set l' v =>
    obtain ⟨hdir, hstable, -⟩ := opsSafe_set_iff.mp hsafe
    obtain rfl := hstable.resolve_right (not_not_intro he)
    cases (perform_set_of_output b hdir).symm.trans hp
    exact setLines_other .e l v s.lines hl
  | get l' =>
    cases (perform_get_of_input b (opsSafe_get_iff.mp hsafe).1).symm.trans hp
    rfl
  | wait us =>
    cases hp
    rfl

/-- Settles O27: the running request's next primitive is on E or on no line, and neither waiting nor taking a request moves a line. -/
theorem linesAreStableWhileEIsHigh : Obligations.LinesAreStableWhileEIsHigh := by
  intro s t hinv hc h he l hl
  obtain ⟨q, ops, b, hs, rfl⟩ | ⟨-, rfl⟩ | ⟨i, rest, -, -, htaken⟩ := step_cases h
  · obtain ⟨-, hat, hsafe, -⟩ := (inv_iff_of_running hs).mp hinv
    obtain ⟨p, rest, rfl⟩ := atEvent_iff.mp hat
    obtain ⟨b', u, -, hp, -, -, -, hu⟩ := advance_of_inv hinv hs
    rw [hu, settle_lines]
    exact perform_lines_of_e_high hsafe he hp hl
  · rfl
  · obtain ⟨-, -, -, hlines, -⟩ := htaken.block_of_constructed hc
    rw [hlines, State.withHost_lines]

/-! ## One transfer -/

/-- A request that goes to one SEND, from a state `s1` with the lines, trace, parameters and device of `s`, and then to statements that only
give the result, completes as the transfer of its byte (41_transfer R152). -/
theorem sendsByte_of_start {i : Instr} {s s1 : State} {v : Byte} {m : Level} {r : Result} {ops tail : List Op}
    (hexec : exec i s = .next (start i ops s1)) (hops : ops = sendOps v m ++ tail) (hl : linesDriven s.lines = true)
    (hbus : SameBus s s1)
    (hend : ∀ u : State, u.result = .empty → settle i none tail u = { u with seq := .idle, result := r }) :
    SendsByte i s s1 v m r := by
  obtain ⟨hlines, -, hparams, hdevice⟩ := hbus
  intro j more hd hb
  have hrun := run_settle_send (q := i) (b := none) (v := v) (m := m) (rest := tail) (more := more)
    (s := s1.withResult .empty) j (hlines ▸ hl) (hdevice.trans (hparams ▸ hd)) fun k hk => hb k (hparams ▸ hk)
  refine ⟨_, hexec, ?_⟩
  rw [start, hops, hrun, hend _ rfl]
  rfl

theorem sameBus_refl (s : State) : SameBus s s := ⟨rfl, rfl, rfl, rfl⟩

/-- A request of nothing but the SEND returns no value: RESULT stays as `start` left it (10_state R37). -/
theorem settle_nil_of_empty (q : Instr) {u : State} (h : u.result = .empty) :
    settle q none [] u = { u with seq := .idle, result := .empty } := by
  rw [← h]
  rfl

/-- Settles O29: SEND by itself is its own microprogram and nothing after it. -/
theorem sendCompletes : Obligations.SendCompletes := by
  rintro s v mode ⟨hs, hc, hl⟩
  exact sendsByte_of_start (runProcedure_of_ready hs hc) (List.append_nil _).symm (linesDriven_of_linesIdle hl)
    (sameBus_refl s) fun _ => settle_nil_of_empty _

/-- Settles O33: COMMAND is a SEND with RS Low and nothing after it. -/
theorem commandSends : Obligations.CommandSends := by
  rintro s v ⟨hs, hc, hl⟩
  exact sendsByte_of_start (takeRequest_of_ready hs hc) (List.append_nil _).symm (linesDriven_of_linesIdle hl)
    (sameBus_refl s) fun _ => settle_nil_of_empty _

/-- Settles O34: WRITE is a SEND with RS High, and then RESULT is 1. -/
theorem writeSends : Obligations.WriteSends := by
  rintro s v ⟨hs, hc, hl⟩
  exact sendsByte_of_start (takeRequest_of_ready hs hc) rfl (linesDriven_of_linesIdle hl) (sameBus_refl s) fun _ _ => rfl

/-! ## A lone nibble and a lone strobe -/

section Alone

variable {s : State} (he : s.lines.e = outputAt .low)

include he

/-- WRITE4BITS by itself: 8 steps, and E is at Low again (41_transfer R150). -/
theorem run_start_write4bits (q : Instr) (n : Nibble) (h0 : s.lines.data0.dir = .output) (h1 : s.lines.data1.dir = .output)
    (h2 : s.lines.data2.dir = .output) (h3 : s.lines.data3.dir = .output) :
    run 8 (start q (write4bitsOps n) s) = .next
      { s with
        seq := .idle
        lines := { s.lines with
          data0 := outputAt (nibbleLevel n 0), data1 := outputAt (nibbleLevel n 1),
          data2 := outputAt (nibbleLevel n 2), data3 := outputAt (nibbleLevel n 3) }
        trace := s.trace ++ nibTrace n
        result := .empty } := by
  have hrun := run_write4bits (rest := []) (s := start q (write4bitsOps n) s) rfl (congrArg LineState.dir he) h0 h1 h2 h3
  rw [hrun, ← he]
  rfl

/-- PULSE_ENABLE by itself: 3 steps, and every line as it was (41_transfer R151). -/
theorem run_start_pulseEnable (q : Instr) :
    run 3 (start q pulseEnableOps s) = .next
      { s with seq := .idle, trace := s.trace ++ [.set .e .high, .wait 50, .set .e .low], result := .empty } := by
  have hdir : s.lines.e.dir = .output := congrArg LineState.dir he
  have hlow : ({ dir := .output, lvl := .low } : LineState) = s.lines.e := he.symm
  refine run_settle_performAll (ps := [.set .e .high, .wait Config.tPulse, .set .e .low]) (rest := []) (b' := none)
    (t := { s with trace := s.trace ++ [.set .e .high, .wait 50, .set .e .low], result := .empty }) ?_
  simp [performAll, perform, lineSet, waitUs, PerLine.get, PerLine.put, setLines, State.withLines, State.withResult,
    State.appendEvent, Config.tPulse, driveLevel, hdir, hlow]

end Alone

/-- Settles O31: both find E and the data lines outputs, with E Low. -/
theorem nibbleAndStrobeComplete : Obligations.NibbleAndStrobeComplete := by
  rintro s ⟨hs, hc, hl⟩
  obtain ⟨-, -, he, h0, h1, h2, h3⟩ := linesDriven_iff.mp (linesDriven_of_linesIdle hl)
  refine ⟨fun n => ⟨_, runProcedure_of_ready hs hc, ?_⟩, _, runProcedure_of_ready hs hc, ?_⟩
  · rw [run_start_write4bits he _ n h0 h1 h2 h3, ← hs]
  · rw [run_start_pulseEnable he, ← hs]

end Sys2Proof.Safety
end

section
/-! SUPPORT. The handshake by itself, the one that gives up at the bound, and the one that never ends (42_handshake R170 to R178;
60_exceptions R243, R244). -/

namespace Sys2Proof.Safety

open Sys2Proof.Machine

/-! ## The handshake by itself -/

/-- Settles O32: WAIT_FOR_READY by itself is the handshake with nothing after it. -/
theorem handshakeCompletes : Obligations.HandshakeCompletes := by
  intro s j more hs hc hl hd hb
  refine ⟨_, runProcedure_of_ready hs hc, ?_⟩
  rw [run_waitForReady (rest := []) (s := start .waitForReady waitForReadyOps s) j rfl hl hd hb, hs]
  rfl

/-! ## The handshake that gives up -/

/-- The iteration whose busy sample reaches the bound: 8 steps, and the handshake stands at its exit with the error after it, and nothing of
`rest` (42_handshake R177). -/
theorem run_lastBusyIteration {q : Instr} {rest : List Op} {more : List Level} {b : Option Level} {s : State}
    (hs : s.seq = .running q (pollIterationOps ++ .pollDecide :: rest) b) (hl : linesPolling s.lines = true)
    (hd : s.device = .script (s.params.busyLevel :: more)) (hlim : s.params.pollLimit = some (s.polls + 1)) :
    run 8 s = .next
      { s with
        seq := .running q (handshakeExitOps ++ [.raiseNotResponding]) none
        polls := s.polls + 1
        trace := s.trace ++ iterTrace s.params.busyLevel
        device := .script more } := by
  rw [run_pollIteration hs hl, hd]
  simp [settle, decidePoll, deviceAnswer, deviceAfter, State.withSeq, State.withPolls, hlim]

/-- The poll loop of a device that answers busy as often as the bound still allows: `8(j + 1)` steps, and then the exit with the error after
it (42_handshake R177). -/
theorem run_pollLoop_givesUp {q : Instr} {rest : List Op} {more : List Level} (j : Nat) {b : Option Level} {s : State}
    (hs : s.seq = .running q (pollIterationOps ++ .pollDecide :: rest) b) (hl : linesPolling s.lines = true)
    (hd : s.device = .script (List.replicate (j + 1) s.params.busyLevel ++ more))
    (hlim : s.params.pollLimit = some (s.polls + (j + 1))) :
    run (8 * (j + 1)) s = .next
      { s with
        seq := .running q (handshakeExitOps ++ [.raiseNotResponding]) none
        polls := s.polls + (j + 1)
        trace := s.trace ++ (List.replicate (j + 1) s.params.busyLevel).flatMap iterTrace
        device := .script more } := by
  induction j generalizing s b with
  | zero => simpa using run_lastBusyIteration hs hl hd hlim
  | succ j ih =>
    have hbelow : ∀ k, s.params.pollLimit = some k → s.polls + 1 ≠ k := by
      intro k hk
      cases hlim.symm.trans hk
      omega
    have hfirst := run_busyIteration hs hl hd hbelow
    have hcount : pollsPlus s 1 = s.polls + 1 := by rw [pollsPlus, hlim]
    rw [hcount] at hfirst
    have hothers := run_trans hfirst (ih rfl hl rfl (by simp only [hlim, Option.some.injEq]; omega))
    rw [show 8 + 8 * (j + 1) = 8 * (j + 1 + 1) by omega] at hothers
    rw [hothers]
    simp [List.replicate_succ, Nat.add_assoc, Nat.add_comm 1]

/-- Settles O43: the entry clears POLLS, the loop counts the `k` samples up to the bound, and the error ends the request after the exit. -/
theorem boundedHandshakeGivesUp : Obligations.BoundedHandshakeGivesUp := by
  intro s q rest b k more hs hl hlim hk hd
  obtain ⟨j, rfl⟩ := Nat.exists_eq_add_of_le' hk
  have hclear : pollsAfter s 0 = 0 := by rw [pollsAfter, hlim]
  have hentry := run_handshakeEntry hs hl
  rw [hclear] at hentry
  calc run (5 + 8 * (j + 1)) s
    _ = run (3 + (8 * (j + 1) + 2)) s := by rw [show 5 + 8 * (j + 1) = 3 + (8 * (j + 1) + 2) by omega]
    _ = run (8 * (j + 1) + 2) _ := run_add _ hentry
    _ = run 2 _ := run_add _ (run_pollLoop_givesUp j rfl (linesPolling_linesInHandshake hl) hd (by simp [hlim]))
    _ = _ := run_handshakeExit rfl rfl rfl
    _ = _ := ?_
  simp [settle, State.withResult, State.withSeq, linesInHandshake, linesAfterHandshake, handshakeTrace]

/-! ## The handshake that hangs -/

/-- The handshake's b after a primitive, where every sample reads `busy` (10_state R35). -/
def bitAfter (busy : Level) (b : Option Level) : Prim → Option Level
  | .get _ => some busy
  | _ => b

/-- The microprogram comes to a poll decision, before anything that gives a result, and finds there the sample `busy`, where every sample
reads so and b is the sample taken before. -/
def meetsBusyPoll (busy : Level) : Option Level → List Op → Bool
  | _, [] => false
  | b, .bus p :: rest => meetsBusyPoll busy (bitAfter busy b p) rest
  | b, .geometry _ _ :: rest => meetsBusyPoll busy b rest
  | b, .shadows :: rest => meetsBusyPoll busy b rest
  | b, .clearPolls :: rest => meetsBusyPoll busy b rest
  | b, .pollDecide :: _ => b == some busy
  | _, .raiseNotResponding :: _ => false
  | _, .returnOne :: _ => false

theorem perform_of_stuck {v : Level} {p : Prim} {b b' : Option Level} {s t : State} (hd : s.device = .stuck v)
    (h : perform p b s = .ok (b', t)) : b' = bitAfter v b p ∧ t.device = .stuck v := by
  cases p with
  | dir l d =>
    cases h
    exact ⟨rfl, hd⟩
  | set l x =>
    by_cases hl : (PerLine.get s.lines l).dir = .output
    · cases (perform_set_of_output b hl).symm.trans h
      exact ⟨rfl, hd⟩
    · cases (perform_set_of_not_output b hl).symm.trans h
  | get l =>
    by_cases hl : (PerLine.get s.lines l).dir = .input
    · cases (perform_get_of_input b hl).symm.trans h
      rw [State.appendEvent_device, State.withDevice_device, hd]
      exact ⟨rfl, rfl⟩
    · cases (perform_get_of_not_input b hl).symm.trans h
  | wait us =>
    cases h
    exact ⟨rfl, hd⟩

/-- An unbounded handshake on a device that always answers busy. -/
def AlwaysBusy (s : State) : Prop := s.params.pollLimit = none ∧ s.device = .stuck s.params.busyLevel

/-- The request `q` runs, has RESULT at `r`, and comes safely to a poll that reads busy; whatever `rest` follows never happens. -/
def HangsIn (q : Instr) (r : Result) (s : State) : Prop :=
  AlwaysBusy s ∧ s.result = r ∧ ∃ ops rest b, s.seq = .running q (ops ++ rest) b ∧ atEvent ops = true ∧
    opsSafe s.lines ops = true ∧ meetsBusyPoll s.params.busyLevel b ops = true

/-- The statements up to the next event give no result, and a poll that reads busy goes back to the sample (42_handshake R178). -/
theorem hangsIn_settle {q : Instr} {ops : List Op} (rest : List Op) {b : Option Level} {s : State} (ha : AlwaysBusy s)
    (hsafe : opsSafe s.lines ops = true) (hpoll : meetsBusyPoll s.params.busyLevel b ops = true) :
    HangsIn q s.result (settle q b (ops ++ rest) s) := by
  induction ops generalizing s with
  | nil => cases hpoll
  | cons op ops ih =>
    cases op with
    | bus p => exact ⟨ha, rfl, .bus p :: ops, rest, b, rfl, rfl, hsafe, hpoll⟩
    | geometry cols rows => exact ih (s := s.withGeometry cols rows) ha hsafe hpoll
    | shadows => exact ih (s := s.withSequenceShadows) ha hsafe hpoll
    | clearPolls =>
      have ⟨hlim, _⟩ := ha
      have hclear : clearPolls s = s := by rw [clearPolls, hlim]
      rw [List.cons_append, settle, hclear]
      exact ih ha hsafe hpoll
    | pollDecide =>
      have ⟨hlim, _⟩ := ha
      have hrepeat : settle q b (.pollDecide :: ops ++ rest) s =
          s.withSeq (.running q (pollIterationOps ++ .pollDecide :: ops ++ rest) none) := by
        rw [List.cons_append, settle, decidePoll, if_pos (eq_of_beq hpoll), hlim]
        simp
      obtain ⟨hl, -⟩ := opsSafe_pollDecide_iff.mp hsafe
      rw [hrepeat]
      exact ⟨ha, rfl, pollIterationOps ++ .pollDecide :: ops, rest, none, rfl, rfl,
        (opsSafe_pollIteration _ hl).mpr hsafe, by simp [meetsBusyPoll, pollIterationOps, pulseEnableOps, bitAfter]⟩
    | raiseNotResponding => cases hpoll
    | returnOne => cases hpoll

theorem HangsIn.keptByStep {q : Instr} {r : Result} {s : State} (h : HangsIn q r s) :
    ∃ t, step s = .next t ∧ HangsIn q r t := by
  obtain ⟨⟨hlim, hd⟩, rfl, ops, rest, b, hs, hat, hsafe, hpoll⟩ := h
  obtain ⟨p, ops, rfl⟩ := atEvent_iff.mp hat
  obtain ⟨b', t, -, hp, -, -, hsafe'⟩ := perform_of_opsSafe b hsafe
  obtain ⟨rfl, hd'⟩ := perform_of_stuck hd hp
  obtain ⟨_, ht⟩ := perform_ok hp
  have hparams : t.params = s.params := by rw [ht]
  have hresult : t.result = s.result := by rw [ht]
  have ha : AlwaysBusy t := ⟨hparams ▸ hlim, hparams ▸ hd'⟩
  exact ⟨_, step_of_perform_ok hs hp, hresult ▸ hangsIn_settle rest ha hsafe' (hparams ▸ hpoll)⟩

theorem HangsIn.keptByRun {q : Instr} {r : Result} {s : State} (h : HangsIn q r s) (n : Nat) :
    ∃ u, run n s = .next u ∧ HangsIn q r u := by
  induction n generalizing s with
  | zero => exact ⟨s, rfl, h⟩
  | succ n ih =>
    obtain ⟨t, ht, h'⟩ := h.keptByStep
    rw [run_of_next n ht]
    exact ih h'

/-- A request that hangs still runs after any number of steps, with RESULT as it was. -/
theorem HangsIn.stillRunning {q : Instr} {r : Result} {s : State} (h : HangsIn q r s) (n : Nat) :
    ∃ u : State, run n s = .next u ∧ u.result = r ∧ ∃ ops b, u.seq = .running q ops b := by
  obtain ⟨u, hrun, -, hr, ops, rest, b, hu, -⟩ := h.keptByRun n
  exact ⟨u, hrun, hr, _, b, hu⟩

/-! ## The requests that hang -/

theorem linesIdle_linesAfterHandshake {c : PerLine LineState} (h : linesDriven c = true) :
    linesIdle (linesAfterHandshake c) = true := by
  obtain ⟨-, -, he, h0, h1, h2, -⟩ := linesDriven_iff.mp h
  exact linesIdle_iff.mpr ⟨linesDriven_iff.mpr ⟨rfl, rfl, he, h0, h1, h2, rfl⟩, rfl, rfl⟩

theorem meetsBusyPoll_send (busy : Level) (b : Option Level) (v : Byte) (m : Level) (rest : List Op) :
    meetsBusyPoll busy b (sendOps v m ++ rest) = true := beq_self_eq_true (some busy)

theorem meetsBusyPoll_waitForReady (busy : Level) (b : Option Level) (rest : List Op) :
    meetsBusyPoll busy b (waitForReadyOps ++ rest) = true := beq_self_eq_true (some busy)

theorem meetsBusyPoll_sequence (busy : Level) (b : Option Level) (variant : Variant) :
    meetsBusyPoll busy b (sequenceOps variant) = true := by
  cases variant
  · exact beq_self_eq_true (some busy)
  · exact beq_self_eq_true (some busy)

/-- The host requests, and the procedures that have a handshake. -/
def HasHandshake (i : Instr) : Prop :=
  i.wellFormed = true ∨ (∃ v m, i = .send v m) ∨ i = .waitForReady ∨ ∃ cols rows, i = .powerOnSequence cols rows

/-- They are the ones of the opcode table, CONSTRUCT, the handshake itself and the sequences. -/
theorem HasHandshake.cases {i : Instr} (h : HasHandshake i) :
    tableRow i ≠ none ∨ (∃ ver rs rw e d0 d1 d2 d3, i = .construct ver rs rw e d0 d1 d2 d3) ∨ i = .waitForReady ∨
      ∃ cols rows, i = .beginInit cols rows ∨ i = .powerOnSequence cols rows := by
  obtain hw | ⟨v, m, rfl⟩ | rfl | ⟨cols, rows, rfl⟩ := h
  · cases i with
    | construct ver rs rw e d0 d1 d2 d3 => exact .inr (.inl ⟨ver, rs, rw, e, d0, d1, d2, d3, rfl⟩)
    | beginInit cols rows => exact .inr (.inr (.inr ⟨cols, rows, .inl rfl⟩))
    | write4bits n => cases hw
    | pulseEnable => cases hw
    | waitForReady => cases hw
    | powerOnSequence cols rows => cases hw
    | _ => exact .inl (Option.some_ne_none _)
  · exact .inl (Option.some_ne_none _)
  · exact .inr (.inr (.inl rfl))
  · exact .inr (.inr (.inr ⟨cols, rows, .inr rfl⟩))

/-- Accepted on a built block, such an instruction starts at a microprogram that comes to a poll. -/
theorem meetsBusyPoll_of_exec {i : Instr} {s t : State} {ops : List Op} {b : Option Level} (hi : HasHandshake i)
    (hs : s.seq = .idle) (hc : s.constructed = true) (h : exec i s = .next t) (ht : t.seq = .running i ops b)
    (busy : Level) : meetsBusyPoll busy b ops = true := by
  obtain hrow | ⟨ver, rs, rw, e, d0, d1, d2, d3, rfl⟩ | rfl | ⟨cols, rows, rfl | rfl⟩ := hi.cases
  · obtain ⟨s', tail, hexec, -, htail⟩ := sendsWords_busWords hrow hs hc
    cases hexec.symm.trans h
    cases hws : busWords s.numLines s.dispctl s.entry i with
    | nil =>
      rw [hws] at ht
      cases (settle_tail_seq htail i s').symm.trans ht
    | cons w ws =>
      rw [hws] at ht
      cases ht
      exact meetsBusyPoll_send busy none _ _ (ws.flatMap wordOps ++ tail)
  · cases (secondConstructIsRefused s ver rs rw e d0 d1 d2 d3 hs hc).symm.trans h
    cases hs.symm.trans ht
  · cases (runProcedure_of_ready hs hc).symm.trans h
    cases ht
    exact meetsBusyPoll_waitForReady busy none []
  · cases (takeRequest_of_ready hs hc).symm.trans h
    rw [start_powerOn] at ht
    cases ht
    exact meetsBusyPoll_sequence busy none s.variant
  · cases (runProcedure_of_ready hs hc).symm.trans h
    rw [start_powerOn] at ht
    cases ht
    exact meetsBusyPoll_sequence busy none s.variant

/-- An instruction with a handshake, accepted under the invariant, hangs from its first event on. -/
theorem hangsIn_of_accepted {i : Instr} {s t : State} (hi : HasHandshake i) (hinv : inv s = true) (hs : s.seq = .idle)
    (ha : AlwaysBusy s) (h : exec i s = .next t) (ht : t.seq ≠ .idle) : HangsIn i .empty t := by
  have hidleLines : s.constructed = true → linesIdle s.lines = true := fun hc => ((inv_iff_of_idle hs).mp hinv hc).1
  cases exec_taken h with
  | waits q ops b hq => cases hs.symm.trans hq
  | recorded r => exact absurd rfl ht
  | sends ops _ hc hat hidle =>
    exact ⟨ha, rfl, ops, [], none, by simp, hat, hidle.safe (hidleLines hc), meetsBusyPoll_of_exec hi hs hc h rfl _⟩
  | sendsDispctl d v _ hc =>
    exact hangsIn_settle [] (s := (s.withDispctl d).withResult .empty) ha ((keepsIdle_send v .low).safe (hidleLines hc))
      (meetsBusyPoll_of_exec hi hs hc h rfl _)
  | sendsEntry x v _ hc =>
    exact hangsIn_settle [] (s := (s.withEntry x).withResult .empty) ha ((keepsIdle_send v .low).safe (hidleLines hc))
      (meetsBusyPoll_of_exec hi hs hc h rfl _)
  | sequence cols rows _ hc =>
    exact ⟨ha, rfl, sequenceOps s.variant, [], none, by simp, rfl,
      opsSafe_sequence s.variant (e_ne_high_of_linesIdle (hidleLines hc)), meetsBusyPoll_sequence _ none s.variant⟩
  | constructs ver rs rw e d0 d1 d2 d3 =>
    exact ⟨ha, rfl, sequenceOps (decodeVariant ver), [], none, by simp, rfl,
      opsSafe_sequence _ (show unconfiguredLines.e.lvl ≠ .high by decide), meetsBusyPoll_sequence _ none _⟩
  | inPlace q ops rest b hq => cases hs.symm.trans hq
  | sequenceInPlace cols rows q rest b hq => cases hs.symm.trans hq

/-- Settles O45: a step keeps `HangsIn`, and the handshake wherever it stands and every accepted request are in it. -/
theorem unboundedHandshakeHangs : Obligations.UnboundedHandshakeHangs := by
  refine ⟨fun s q rest b n hs hl hlim hd => ?_, fun i s t n hi hinv hs hlim hd h ht => ?_, ?_⟩
  · have hsafe : opsSafe s.lines waitForReadyOps = true :=
      (opsSafe_waitForReady [] hl).mpr (linesIdle_linesAfterHandshake hl)
    have hhangs : HangsIn q s.result s :=
      ⟨⟨hlim, hd⟩, rfl, waitForReadyOps, rest, b, hs, rfl, hsafe, meetsBusyPoll_waitForReady _ b []⟩
    exact hhangs.stillRunning n
  · exact (hangsIn_of_accepted hi hinv hs ⟨hlim, hd⟩ h ht).stillRunning n
  · rintro s v m ⟨hs, hc, -⟩
    exact ⟨_, _, _, takeRequest_of_ready hs hc, takeRequest_of_ready hs hc, runProcedure_of_ready hs hc,
      nofun, nofun, nofun⟩

end Sys2Proof.Safety
end

section
/-! SUPPORT. The requests of the command surface run to their end, and the toggles of a shadow undone (43_command_surface R190 to R207). -/

namespace Sys2Proof.Safety

open Sys2Proof.Machine

/-! ## The requests of one byte -/

theorem sameBus_of_expansion {i : Instr} {s s1 : State} {v : Byte} (h : expansion s i = some (s1, v)) : SameBus s s1 := by
  rw [expansion_frame h]
  exact ⟨rfl, rfl, rfl, rfl⟩

/-- A request of one byte completes as its register write and the transfer of its byte as a command (30_encoding R105). -/
theorem sendsByte_of_expansion {i : Instr} {s s1 : State} {v : Byte} (hr : Ready s) (h : expansion s i = some (s1, v)) :
    SendsByte i s s1 v .low .empty := by
  obtain ⟨hs, hc, hl⟩ := hr
  exact sendsByte_of_start (exec_of_expansion hs hc h) (List.append_nil _).symm (linesDriven_of_linesIdle hl)
    (sameBus_of_expansion h) fun _ => settle_nil_of_empty _

/-- Settles O35: the four expand to their fixed byte and no register write. -/
theorem fixedCommandsSend : Obligations.FixedCommandsSend := fun _ hr =>
  ⟨sendsByte_of_expansion hr rfl, sendsByte_of_expansion hr rfl, sendsByte_of_expansion hr rfl,
    sendsByte_of_expansion hr rfl⟩

/-- Settles O36: where the clamped row has an offset, SET_CURSOR expands to its byte and no register write. -/
theorem setCursorSends : Obligations.SetCursorSends := by
  intro s col row off hr hoff
  have hexp : expansion s (.setCursor col row) = some (s, 0x80 ||| (col + off)) := by rw [expansion, hoff]
  exact sendsByte_of_expansion hr hexp

/-- Settles O38: the six expand to the write of their DISPCTL bit and the byte of the DISPCTL written. -/
theorem displayRequestsSend : Obligations.DisplayRequestsSend := by
  intro s hr
  refine ⟨?_, ?_, ?_, ?_, ?_, ?_⟩ <;>
    (rintro d rfl
     exact sendsByte_of_expansion hr rfl)

/-- Settles O39: the four expand to the write of their ENTRY bit and the byte of the ENTRY written. -/
theorem entryRequestsSend : Obligations.EntryRequestsSend := by
  intro s hr
  refine ⟨?_, ?_, ?_, ?_⟩ <;>
    (rintro d rfl
     exact sendsByte_of_expansion hr rfl)

/-! ## CREATE_CHAR -/

theorem pollsAfter_afterSend (s : State) (v : Byte) (m : Level) (j j' : Nat) (more : List Level) :
    pollsAfter (afterSend s v m j more) j' = pollsAfter s j' := by
  cases hlim : s.params.pollLimit <;> simp [pollsAfter, afterSend, hlim]

/-- Transfers one after another leave the lines and POLLS as the last of them does. -/
theorem afterTransfers_of_getLast? {xs : List ((Byte × Level) × Nat)} {v : Byte} {m : Level} {j : Nat} (s : State)
    (more : List Level) (h : xs.getLast? = some ((v, m), j)) :
    afterTransfers s xs more =
      { s with
        lines := linesAfterSend v
        trace := s.trace ++ transfersTrace s.params.busyLevel xs
        polls := pollsAfter s j
        device := .script more } := by
  induction xs generalizing s with
  | nil => cases h
  | cons x xs ih =>
    cases xs with
    | nil =>
      cases h
      simp [afterTransfers, afterSend, transfersTrace]
    | cons y ys =>
      rw [List.getLast?_cons_cons] at h
      rw [afterTransfers, ih _ h, pollsAfter_afterSend]
      simp [afterSend, transfersTrace]

theorem transfersTrace_high (busy : Level) (xs : List (Byte × Nat)) :
    transfersTrace busy (xs.map fun x => ((x.1, .high), x.2)) = dataTrace busy xs := by
  induction xs with
  | nil => rfl
  | cons x xs ih => rw [List.map_cons, transfersTrace, ih, dataTrace]

/-- A request that is transfers and nothing after them completes, with no register written (10_state R37; 41_transfer R152). -/
theorem completes_of_transfers {i : Instr} {s : State} {xs : List ((Byte × Level) × Nat)} {v : Byte} {m : Level} {j : Nat}
    {more : List Level} (hr : Ready s) (hexec : exec i s = .next (start i (transferOps xs) s))
    (hd : s.device = .script (transferAnswers s.params.busyLevel xs ++ more)) (hb : ∀ x ∈ xs, WithinBound s x.2)
    (hlast : xs.getLast? = some ((v, m), j)) :
    ∃ t, exec i s = .next t ∧ run (transferSteps xs) t = .next
      { s with
        lines := linesAfterSend v
        trace := s.trace ++ transfersTrace s.params.busyLevel xs
        polls := pollsAfter s j
        device := .script more
        result := .empty } := by
  obtain ⟨hs, -, hl⟩ := hr
  have hrun := run_settle_transfers (q := i) (rest := []) (s := s.withResult .empty) xs (linesDriven_of_linesIdle hl) hd hb
  rw [List.append_nil, afterTransfers_of_getLast? _ _ hlast, settle_nil_of_empty _ rfl, ← hs] at hrun
  exact ⟨_, hexec, hrun⟩

/-- The nine transfers of CREATE_CHAR, the handshake of its command reading busy `j0` times, those of the bitmap's bytes `j1` to `j8`
times (43_command_surface R205). -/
def createCharTransfers (slot : Byte) (b : Bitmap) (j0 j1 j2 j3 j4 j5 j6 j7 j8 : Nat) : List ((Byte × Level) × Nat) :=
  ((cgramCmd slot, .low), j0) ::
    [(b.b0, j1), (b.b1, j2), (b.b2, j3), (b.b3, j4), (b.b4, j5), (b.b5, j6), (b.b6, j7), (b.b7, j8)].map fun x =>
      ((x.1, .high), x.2)

/-- Settles O40: the microprogram is the nine transfers, the last of them of the bitmap's byte 7. -/
theorem createCharSends : Obligations.CreateCharSends := by
  intro s slot b j0 j1 j2 j3 j4 j5 j6 j7 j8 more hr hb hd
  obtain ⟨hs, hc, -⟩ := id hr
  have hexec : exec (.createChar slot b) s =
      .next (start (.createChar slot b) (transferOps (createCharTransfers slot b j0 j1 j2 j3 j4 j5 j6 j7 j8)) s) :=
    takeRequest_of_ready hs hc
  have hbound : ∀ x ∈ createCharTransfers slot b j0 j1 j2 j3 j4 j5 j6 j7 j8, WithinBound s x.2 := by
    simpa [createCharTransfers] using hb
  have hsteps : transferSteps (createCharTransfers slot b j0 j1 j2 j3 j4 j5 j6 j7 j8) =
      279 + 8 * (j0 + j1 + j2 + j3 + j4 + j5 + j6 + j7 + j8) := by
    simp only [transferSteps, createCharTransfers, List.map_cons, List.map_nil, List.sum_cons, List.sum_nil]
    omega
  have hdone := completes_of_transfers hr hexec hd hbound rfl
  rw [hsteps, createCharTransfers, transfersTrace, transfersTrace_high, ← List.append_assoc] at hdone
  exact hdone

/-! ## Toggles -/

@[simp] theorem getLsbD_setField {w : Nat} (m r : BitVec w) (i : Nat) :
    (setField m r).getLsbD i = (r.getLsbD i || m.getLsbD i) :=
  BitVec.getLsbD_or

@[simp] theorem getLsbD_clearField {w : Nat} (m r : BitVec w) (i : Nat) :
    (clearField m r).getLsbD i = (r.getLsbD i && !m.getLsbD i) := by
  by_cases hi : i < w
  · simp [clearField, hi]
  · simp [BitVec.getLsbD_of_ge _ i (not_lt.mp hi)]

theorem getLsbD_and_of_and_eq_zero {w : Nat} {x y : BitVec w} (h : x &&& y = 0) (i : Nat) :
    (x.getLsbD i && y.getLsbD i) = false := by
  rw [← BitVec.getLsbD_and, h]
  exact BitVec.getLsbD_zero

/-- A field set and then cleared is as before, where it was 0 (43_command_surface R207). -/
theorem clearField_setField {w : Nat} {m r : BitVec w} (h : r &&& m = 0) : clearField m (setField m r) = r := by
  refine BitVec.eq_of_getLsbD_eq fun i _ => ?_
  have hbit := getLsbD_and_of_and_eq_zero h i
  rw [getLsbD_clearField, getLsbD_setField]
  cases hm : m.getLsbD i
  · simp
  · rw [hm, Bool.and_true] at hbit
    simp [hbit]

/-- The bytes of a field set and of it cleared again differ in the field's bits, where no fixed bit of the byte is in the field (R207). -/
theorem xor_setField_clearField {w : Nat} {c : Byte} {m : BitVec w} (h : c &&& m.setWidth 8 = 0) (r : BitVec w) :
    (c ||| (setField m r).setWidth 8) ^^^ (c ||| (clearField m (setField m r)).setWidth 8) = m.setWidth 8 := by
  refine BitVec.eq_of_getLsbD_eq fun i hi => ?_
  have hbit := getLsbD_and_of_and_eq_zero h i
  simp only [BitVec.getLsbD_xor, BitVec.getLsbD_or, BitVec.getLsbD_setWidth, getLsbD_clearField, getLsbD_setField] at hbit ⊢
  cases hm : m.getLsbD i
  · simp
  · have hfixed : c.getLsbD i = false := by simpa [hm, hi] using hbit
    rw [hfixed]
    simp [hi]

section Toggle

variable {s u : State} {i i' : Instr} (hs : s.seq = .idle) (hc : s.constructed = true) (hu : u.seq = .idle)
  (hcu : u.constructed = true)

include hs hc hu hcu

/-- A field of DISPCTL set by one request and then cleared by another (R207). -/
theorem dispctl_toggle_reversible {m : BitVec 3} (hset : exec i s = sendDispctl i (setField m s.dispctl) s)
    (hclear : exec i' u = sendDispctl i' (clearField m u.dispctl) u) (hm : 0x08#8 &&& m.setWidth 8 = 0) :
    ∃ t w : State, exec i s = .next t ∧ exec i' u = .next w ∧
      (u.dispctl = t.dispctl → (s.dispctl &&& m = 0 → w.dispctl = s.dispctl) ∧
        (0x08#8 ||| t.dispctl.setWidth 8) ^^^ (0x08#8 ||| w.dispctl.setWidth 8) = m.setWidth 8) := by
  refine ⟨_, _, hset.trans (sendDispctl_of_ready _ _ hs hc), hclear.trans (sendDispctl_of_ready _ _ hu hcu), fun h => ?_⟩
  rw [show u.dispctl = setField m s.dispctl from h]
  exact ⟨clearField_setField, xor_setField_clearField hm _⟩

/-- A field of ENTRY set by one request and then cleared by another (R207). -/
theorem entry_toggle_reversible {m : BitVec 2} (hset : exec i s = sendEntry i (setField m s.entry) s)
    (hclear : exec i' u = sendEntry i' (clearField m u.entry) u) (hm : 0x04#8 &&& m.setWidth 8 = 0) :
    ∃ t w : State, exec i s = .next t ∧ exec i' u = .next w ∧
      (u.entry = t.entry → (s.entry &&& m = 0 → w.entry = s.entry) ∧
        (0x04#8 ||| t.entry.setWidth 8) ^^^ (0x04#8 ||| w.entry.setWidth 8) = m.setWidth 8) := by
  refine ⟨_, _, hset.trans (sendEntry_of_ready _ _ hs hc), hclear.trans (sendEntry_of_ready _ _ hu hcu), fun h => ?_⟩
  rw [show u.entry = setField m s.entry from h]
  exact ⟨clearField_setField, xor_setField_clearField hm _⟩

end Toggle

/-- Settles O42: each pair sets and clears one field, which no fixed bit of its byte meets. -/
theorem togglesAreReversible : Obligations.TogglesAreReversible := by
  simp only [Obligations.TogglesAreReversible, List.forall_mem_cons, List.not_mem_nil, false_implies, implies_true, and_true]
  refine ⟨⟨?_, ?_, ?_⟩, ?_, ?_⟩ <;> intro s u hs hc hu hcu
  · exact dispctl_toggle_reversible hs hc hu hcu rfl rfl (by decide)
  · exact dispctl_toggle_reversible hs hc hu hcu rfl rfl (by decide)
  · exact dispctl_toggle_reversible hs hc hu hcu rfl rfl (by decide)
  · exact entry_toggle_reversible hs hc hu hcu rfl rfl (by decide)
  · exact entry_toggle_reversible hs hc hu hcu rfl rfl (by decide)

end Sys2Proof.Safety
end

section
/-! SUPPORT. A request waits while another runs, and an outcome is recorded for good (60_exceptions R242, R246, R247, R251). -/

namespace Sys2Proof.Safety

open Sys2Proof.Machine

/-! ## Taking requests -/

/-- Settles O1: the decoded request of an idle block, and the move of a running one. -/
theorem stepRunsDecodedRequest : Obligations.StepRunsDecodedRequest :=
  ⟨fun _ _ _ _ hs hh ho hw => step_of_request hs hh ho hw, fun _ _ _ _ hs => step_of_running hs⟩

/-- While another request runs a host request is not taken; only an internal procedure would run in place (60_exceptions R247). -/
theorem exec_of_running {i : Instr} {s : State} {q : Instr} {ops : List Op} {b : Option Level}
    (hs : s.seq = .running q ops b) (hw : i.wellFormed = true) : exec i s = .next s := by
  obtain ⟨t, ht, -⟩ := goesOn_exec i s
  cases exec_taken ht with
  | waits => exact ht
  | inPlace _ _ _ _ _ hi => cases hw.symm.trans hi
  | sequenceInPlace _ _ _ _ _ _ hi =>
    subst hi
    cases hw
  | recorded _ hidle => cases hs.symm.trans hidle
  | sends _ hidle => cases hs.symm.trans hidle
  | sendsDispctl _ _ hidle => cases hs.symm.trans hidle
  | sendsEntry _ _ hidle => cases hs.symm.trans hidle
  | sequence _ _ hidle => cases hs.symm.trans hidle
  | constructs _ _ _ _ _ _ _ _ hidle => cases hs.symm.trans hidle

theorem settle_host (q : Instr) (b : Option Level) (ops : List Op) (s : State) : (settle q b ops s).host = s.host := by
  obtain ⟨_, _, _, _, _, _, _, _, _, h⟩ := settle_frame q b ops s
  rw [h]

/-- The sequencer takes no offer (60_exceptions R247). -/
theorem advance_host (s : State) : (advance s).host = s.host := by
  obtain h | ⟨q, p, rest, b, b', t, -, hp, h⟩ | ⟨q, p, rest, b, f, -, -, h⟩ | ⟨q, ops, b, -, h⟩ := advance_cases s <;>
    rw [h]
  · obtain ⟨_, ht⟩ := perform_ok hp
    rw [settle_host, ht]
  · rfl
  · exact settle_host q b ops s

/-- Settles O7: `exec` does not take the request, and the sequencer takes no offer. -/
theorem requestWaitsWhileRunning : Obligations.RequestWaitsWhileRunning := fun s _ _ _ hs =>
  ⟨fun _ hw => exec_of_running hs hw, advance s, step_of_running hs, advance_host s⟩

/-! ## Recorded outcomes -/

/-- `t` has the outcomes recorded in `s`, and at most one more (60_exceptions R242). -/
def RecordsAtMostOne (s t : State) : Prop := t.records = s.records ∨ ∃ r, t.records = s.records ++ [r]

/-- The sequencer records nothing but the fault of a primitive (20_memory R62, R63). -/
theorem recordsAtMostOne_advance (s : State) : RecordsAtMostOne s (advance s) := by
  obtain h | ⟨q, p, rest, b, b', t, -, hp, h⟩ | ⟨q, p, rest, b, f, -, -, h⟩ | ⟨q, ops, b, -, h⟩ := advance_cases s <;>
    rw [h]
  · exact .inl rfl
  · obtain ⟨_, ht⟩ := perform_ok hp
    exact .inl (by rw [settle_records, ht])
  · exact .inr ⟨.fault f, rfl⟩
  · exact .inl (settle_records q b ops s)

theorem recordsAtMostOne_step {s t : State} (h : step s = .next t) : RecordsAtMostOne s t := by
  obtain ⟨q, ops, b, -, rfl⟩ | ⟨-, rfl⟩ | ⟨i, rest, -, -, htaken⟩ := step_cases h
  · exact recordsAtMostOne_advance s
  · exact .inl rfl
  · exact htaken.records

/-- Settles O5: a step adds nothing to the records, or one outcome at their end. -/
theorem recordsAreForGood : Obligations.RecordsAreForGood := by
  intro s t h
  obtain hsame | ⟨r, hr⟩ := recordsAtMostOne_step h
  · exact ⟨[], by simp [hsame]⟩
  · exact ⟨[r], hr, le_rfl⟩

end Sys2Proof.Safety
end

section
/-! SUPPORT. The requests that give up under a bound: those of one transfer, the power-on sequence and CREATE_CHAR (60_exceptions R243). -/

namespace Sys2Proof.Safety

open Sys2Proof.Machine

/-! ## One transfer that gives up -/

/-- `s` once the transfer of `v` has given up on it at the `k`-th busy sample: the transfer's events and the exit's, the request ended, RESULT
the error (42_handshake R177; 60_exceptions R243). `trace` is what it had before that transfer. -/
def gaveUp (s : State) (trace : List Event) (v : Byte) (m : Level) (k : Nat) (more : List Level) : State :=
  { s with
    lines := linesAfterSend v
    trace := trace ++ sendTrace v m (List.replicate k s.params.busyLevel)
    polls := k
    device := .script more
    seq := .idle
    result := .deviceNotResponding }

/-- SEND wherever it stands in a microprogram, the device busy up to the bound: `23 + 8k` steps, and nothing of what follows it
(42_handshake R177). -/
theorem run_settle_send_givesUp {q : Instr} {rest : List Op} {more : List Level} {k : Nat} {b : Option Level} {s : State}
    {v : Byte} {m : Level} (hl : linesDriven s.lines = true) (hlim : s.params.pollLimit = some k) (hk : 1 ≤ k)
    (hd : s.device = .script (List.replicate k s.params.busyLevel ++ more)) :
    run (23 + 8 * k) (settle q b (sendOps v m ++ rest) s) = .next (gaveUp s s.trace v m k more) := by
  calc run (23 + 8 * k) (settle q b (sendOps v m ++ rest) s)
    _ = run (18 + (5 + 8 * k)) (s.withSeq (.running q (sendOps v m ++ rest) b)) := by
      rw [settle_send, show 23 + 8 * k = 18 + (5 + 8 * k) by omega]
    _ = run (5 + 8 * k) _ := run_add _ (run_sendNibbles rfl hl)
    _ = _ := boundedHandshakeGivesUp _ q rest b k more rfl (linesDriven_linesAfterNibbles v m) hlim hk hd
    _ = _ := ?_
  simp [gaveUp, sendTrace, linesAfterHandshake_linesAfterNibbles, State.withSeq]

/-- A request that goes to one SEND, from a state `s1` with the lines, trace, parameters and device of `s`, gives up with `s1`'s registers;
whatever it has after the SEND does not happen (60_exceptions R243). -/
theorem sendGivesUp_of_start {i : Instr} {s s1 : State} {v : Byte} {m : Level} (tail : List Op)
    (hexec : exec i s = .next (start i (sendOps v m ++ tail) s1)) (hl : linesDriven s.lines = true)
    (hbus : SameBus s s1) : SendGivesUp i s s1 v m := by
  obtain ⟨hlines, htrace, hparams, hdevice⟩ := hbus
  intro k more hlim hk hd
  have hrun := run_settle_send_givesUp (q := i) (rest := tail) (b := none) (v := v) (m := m) (s := s1.withResult .empty)
    (hlines ▸ hl) (hparams ▸ hlim) hk (hdevice.trans (hparams ▸ hd))
  refine ⟨_, hexec, hrun.trans ?_⟩
  rw [gaveUp, State.withResult_trace, State.withResult_params, htrace, hparams]
  rfl

/-- Settles O44: each of them goes to one SEND, the toggles with their shadow written, WRITE with its return after it. -/
theorem requestsGiveUpUnderABound : Obligations.RequestsGiveUpUnderABound := by
  rintro s ⟨hs, hc, hidle⟩
  have hl := linesDriven_of_linesIdle hidle
  refine ⟨fun i s1 v h => ?_, fun v => ?_, fun v => ?_, fun v m => ?_⟩
  · exact sendGivesUp_of_start [] (exec_of_expansion hs hc h) hl (sameBus_of_expansion h)
  · exact sendGivesUp_of_start [] (takeRequest_of_ready hs hc) hl (sameBus_refl s)
  · exact sendGivesUp_of_start [.returnOne] (takeRequest_of_ready hs hc) hl (sameBus_refl s)
  · exact sendGivesUp_of_start [] (runProcedure_of_ready hs hc) hl (sameBus_refl s)

/-! ## Giving up after some transfers -/

/-- The transfers `xs` run to their end, and the one after them gives up (60_exceptions R243). -/
theorem run_settle_transfers_givesUp {q : Instr} {rest : List Op} {more : List Level} {k : Nat} {v : Byte} {m : Level}
    (xs : List ((Byte × Level) × Nat)) {s : State} (hl : linesDriven s.lines = true)
    (hlim : s.params.pollLimit = some k) (hk : 1 ≤ k) (hb : ∀ x ∈ xs, WithinBound s x.2)
    (hd : s.device = .script (transferAnswers s.params.busyLevel xs ++ (List.replicate k s.params.busyLevel ++ more))) :
    run (transferSteps xs + (23 + 8 * k)) (settle q none (transferOps xs ++ (sendOps v m ++ rest)) s) =
      .next (gaveUp s (s.trace ++ transfersTrace s.params.busyLevel xs) v m k more) := by
  induction xs generalizing s with
  | nil =>
    have hrun := run_settle_send_givesUp (q := q) (rest := rest) (b := none) (v := v) (m := m) hl hlim hk hd
    simpa [transferSteps, transferOps, transfersTrace] using hrun
  | cons x xs ih =>
    obtain ⟨⟨w, n⟩, j⟩ := x
    rw [List.forall_mem_cons] at hb
    obtain ⟨hj, hrest⟩ := hb
    have hfirst := run_settle_send (q := q) (rest := transferOps xs ++ (sendOps v m ++ rest)) (b := none) (v := w) (m := n)
      j hl (by simpa [transferAnswers] using hd) hj
    have hrun := run_trans hfirst (ih rfl hlim hrest rfl)
    simpa [transferSteps, transferOps, transfersTrace, gaveUp, afterSend, Nat.add_assoc] using hrun

/-- The step-8 commands `xs` run to their end, and the one after them gives up (60_exceptions R243; vector V-I7). -/
theorem run_settle_commands_givesUp {q : Instr} {rest : List Op} {more : List Level} {k : Nat} {v : Byte}
    (xs : List (Byte × Nat)) {s : State} (hl : linesDriven s.lines = true)
    (hlim : s.params.pollLimit = some k) (hk : 1 ≤ k) (hb : ∀ x ∈ xs, WithinBound s x.2)
    (hd : s.device = .script (commandAnswers s.params.busyLevel xs ++ (List.replicate k s.params.busyLevel ++ more))) :
    run (commandSteps xs + (23 + 8 * k)) (settle q none (commandOps xs ++ (sendOps v .low ++ rest)) s) =
      .next (gaveUp s (s.trace ++ initTrace s.params.busyLevel xs) v .low k more) := by
  induction xs generalizing s with
  | nil =>
    have hrun := run_settle_send_givesUp (q := q) (rest := rest) (b := none) (v := v) (m := .low) hl hlim hk hd
    simpa [commandSteps, commandOps, initTrace] using hrun
  | cons x xs ih =>
    obtain ⟨w, j⟩ := x
    rw [List.forall_mem_cons] at hb
    obtain ⟨hj, hrest⟩ := hb
    have hfirst := run_settle_command (q := q) (rest := commandOps xs ++ (sendOps v .low ++ rest)) (b := none) (v := w)
      j hl (by simpa [commandAnswers] using hd) hj
    have hrun := run_trans hfirst (ih rfl hlim hrest rfl)
    simpa [commandSteps, commandOps, initTrace, gaveUp, afterCommand, afterSend, Nat.add_assoc] using hrun

/-! ## The transfers before the one that gives up, each with its busy count -/

section Before

variable {α β : Type} {xs : List α} {js : List Nat} {x : α} (h : xs[js.length]? = some x)

include h

theorem exists_eq_zip_append : ∃ post, xs = (xs.zip js).map Prod.fst ++ x :: post := by
  induction js generalizing xs with
  | nil =>
    cases xs with
    | nil => cases h
    | cons y ys =>
      cases h
      exact ⟨ys, rfl⟩
  | cons j js ih =>
    cases xs with
    | nil => cases h
    | cons y ys =>
      obtain ⟨post, hpost⟩ := ih h
      exact ⟨post, congrArg (y :: ·) hpost⟩

/-- The microprogram of the transfers `xs`: those with a busy count, the one that gives up, and the rest. -/
theorem exists_flatMap_eq_zip_append (f : α → List β) :
    ∃ rest, xs.flatMap f = ((xs.zip js).flatMap fun y => f y.1) ++ (f x ++ rest) := by
  obtain ⟨post, hpost⟩ := exists_eq_zip_append h
  have hflat := congrArg (List.flatMap f) hpost
  rw [List.flatMap_append, List.flatMap_map, List.flatMap_cons] at hflat
  exact ⟨post.flatMap f, hflat⟩

theorem map_snd_zip_before : (xs.zip js).map Prod.snd = js :=
  List.map_snd_zip (List.getElem?_eq_some_iff.mp h).1.le

theorem map_zip_before (f : Nat → β) : ((xs.zip js).map fun y => f y.2) = js.map f := by
  have hmap := congrArg (List.map f) (map_snd_zip_before h)
  rwa [List.map_map] at hmap

theorem flatMap_zip_before (f : Nat → List β) : ((xs.zip js).flatMap fun y => f y.2) = js.flatMap f := by
  have hflat := congrArg (List.flatMap f) (map_snd_zip_before h)
  rwa [List.flatMap_map] at hflat

end Before

theorem withinBound_of_mem_zip {α : Type} {xs : List α} {js : List Nat} {k : Nat} {s : State}
    (hlim : s.params.pollLimit = some k) (hb : ∀ j ∈ js, j < k) : ∀ y ∈ xs.zip js, WithinBound s y.2 := by
  intro y hy k' hk'
  cases hlim.symm.trans hk'
  exact hb y.2 (List.of_mem_zip hy).2

/-! ## The requests of more than one transfer -/

section GivesUp

variable {s : State} {js : List Nat} {k : Nat} {more : List Level} (hlim : s.params.pollLimit = some k) (hk : 1 ≤ k)
  (hb : ∀ j ∈ js, j < k)
  (hd : s.device = .script (js.flatMap (pollAnswers s.params.busyLevel) ++ List.replicate k s.params.busyLevel ++ more))

include hlim hk hb hd

/-- The power-on sequence, run from any lines on a block whose geometry is written, gives up at the handshake of a step-8 command: step 9
does not run (60_exceptions R243; vector V-I7). -/
theorem run_sequence_givesUp {q : Instr} {v : Byte} (hv : initCommands[js.length]? = some v) :
    run (gaveUpPowerOnLength s.variant js k) (settle q none (sequenceOps s.variant) s) = .next
      (gaveUp s (s.trace ++ configureTrace ++ loneTrace s.variant ++ initTrace s.params.busyLevel (initCommands.zip js))
        v .low k more) := by
  obtain ⟨rest, hops⟩ := exists_flatMap_eq_zip_append hv initCommandOps
  have hlength : gaveUpPowerOnLength s.variant js k =
      15 + (9 * (loneNibbles s.variant).length + (commandSteps (initCommands.zip js) + (23 + 8 * k))) := by
    rw [gaveUpPowerOnLength, List.length_append, length_loneTrace, commandSteps, map_zip_before hv fun j => 32 + 8 * j,
      Nat.add_assoc, Nat.add_assoc]
    rfl
  obtain ⟨c, hc, hlone⟩ := run_settle_loneNibbles (q := q) (b := none) (loneNibbles s.variant)
    (rest := initCommands.flatMap initCommandOps ++ [.shadows])
    (s := { s with lines := linesConfigured, trace := s.trace ++ configureTrace }) rfl
  have hgiveUp := run_settle_commands_givesUp (q := q) (v := v) (more := more)
    (rest := opWait Config.tInit :: rest ++ [.shadows]) (initCommands.zip js)
    (s := { s with lines := c, trace := s.trace ++ configureTrace ++ (loneNibbles s.variant).flatMap loneNibbleTrace })
    hc hlim hk (withinBound_of_mem_zip hlim hb)
    (by rw [commandAnswers, flatMap_zip_before hv, ← List.append_assoc]; exact hd)
  have hrest : initCommands.flatMap initCommandOps ++ [.shadows] =
      commandOps (initCommands.zip js) ++ (sendOps v .low ++ (opWait Config.tInit :: rest ++ [.shadows])) := by
    simp [hops, commandOps, initCommandOps]
  rw [← hrest] at hgiveUp
  have hrun := run_trans (run_settle_configure q none _ s) (run_trans hlone hgiveUp)
  rw [hlength, sequenceOps, hrun, loneTrace_eq_flatMap]
  rfl

/-- BEGIN, and POWER_ON_SEQUENCE by itself, give up inside step 8 (40_init_sequencer R131, R132; 60_exceptions R243). -/
theorem exec_sequence_givesUp {i : Instr} {cols rows v : Byte} (hi : i = .beginInit cols rows ∨ i = .powerOnSequence cols rows)
    (hs : s.seq = .idle) (hc : s.constructed = true) (hv : initCommands[js.length]? = some v) :
    ∃ t, exec i s = .next t ∧ run (gaveUpPowerOnLength s.variant js k) t = .next
      (gaveUpPowerOn s s.trace cols rows (initCommands.zip js) v k more) := by
  have hexec : exec i s = .next (start i (powerOnOps s.variant cols rows) s) := by
    obtain rfl | rfl := hi
    · exact takeRequest_of_ready hs hc
    · exact runProcedure_of_ready hs hc
  refine ⟨_, hexec, ?_⟩
  rw [start_powerOn]
  exact run_sequence_givesUp (s := (s.withResult .empty).withGeometry cols rows) hlim hk hb hd hv

/-- CONSTRUCT gives up inside step 8, the block built and the shadows as before (40_init_sequencer R130; 60_exceptions R243). -/
theorem exec_construct_givesUp {ver : Byte} {rs rw e d0 d1 d2 d3 : LineId} {v : Byte} (hs : s.seq = .idle)
    (hc : s.constructed = false) (hids : [rs, rw, e, d0, d1, d2, d3].Nodup) (hv : initCommands[js.length]? = some v) :
    ∃ t, exec (.construct ver rs rw e d0 d1 d2 d3) s = .next t ∧
      run (gaveUpPowerOnLength (decodeVariant ver) js k) t = .next
        (gaveUpPowerOn
          { s with
            constructed := true
            variant := decodeVariant ver
            lineMap := { rs := rs, rw := rw, e := e, data0 := d0, data1 := d1, data2 := d2, data3 := d3 } }
          [] s.params.defaultCols s.params.defaultRows (initCommands.zip js) v k more) :=
  ⟨_, execConstruct_of_nodup ver rs rw e d0 d1 d2 d3 hs hc hids,
    run_sequence_givesUp (s := ((latchConstruct ver ⟨rs, rw, e, d0, d1, d2, d3⟩ s).withResult .empty).withGeometry
      s.params.defaultCols s.params.defaultRows) hlim hk hb hd hv⟩

/-- A request that is the transfers of `words` and nothing after them gives up at one of them, with no register written
(43_command_surface R205; 60_exceptions R243; vector V-F4). -/
theorem givesUp_of_transfers {i : Instr} {words : List (Byte × Level)} {v : Byte} {m : Level} (hr : Ready s)
    (hexec : exec i s = .next (start i (words.flatMap fun x => sendOps x.1 x.2) s)) (hv : words[js.length]? = some (v, m)) :
    ∃ t, exec i s = .next t ∧ run ((js.map fun j => 31 + 8 * j).sum + (23 + 8 * k)) t = .next
      (gaveUp s (s.trace ++ transfersTrace s.params.busyLevel (words.zip js)) v m k more) := by
  obtain ⟨-, -, hl⟩ := hr
  obtain ⟨rest, hops⟩ := exists_flatMap_eq_zip_append hv fun x => sendOps x.1 x.2
  have hrun := run_settle_transfers_givesUp (q := i) (v := v) (m := m) (rest := rest) (more := more) (words.zip js)
    (s := s.withResult .empty) (linesDriven_of_linesIdle hl) hlim hk (withinBound_of_mem_zip hlim hb)
    (by rw [transferAnswers, flatMap_zip_before hv, ← List.append_assoc]; exact hd)
  rw [transferSteps, map_zip_before hv fun j => 31 + 8 * j, transferOps, ← hops] at hrun
  exact ⟨_, hexec, hrun⟩

end GivesUp

/-- Settles O59: the sequence gives up after some commands of step 8, CREATE_CHAR after some of its nine transfers. -/
theorem sequencesGiveUpUnderABound : Obligations.SequencesGiveUpUnderABound := by
  refine ⟨fun s i cols rows v js k more hi hs hc hlim hk hb hv hd =>
      exec_sequence_givesUp hlim hk hb hd hi hs hc hv,
    fun s ver rs rw e d0 d1 d2 d3 v js k more hs hc hids hlim hk hb hv hd =>
      exec_construct_givesUp hlim hk hb hd hs hc hids hv,
    fun s slot bm words v m js k more hr hwords hlim hk hb hv hd => ?_⟩
  obtain ⟨hs, hc, -⟩ := id hr
  have hexec : exec (.createChar slot bm) s =
      .next (start (.createChar slot bm) (words.flatMap fun x => sendOps x.1 x.2) s) := by
    subst hwords
    exact takeRequest_of_ready hs hc
  obtain ⟨t, ht, hrun⟩ := givesUp_of_transfers hlim hk hb hd hr hexec hv
  rw [gaveUp, ← hs] at hrun
  exact ⟨t, ht, hrun⟩

end Sys2Proof.Safety
end

section
/-! SUPPORT. The transfers on a device stuck at ready, the requests before CONSTRUCT, and the least durations (70_reset_and_hazards R272,
R282, R283). -/

namespace Sys2Proof.Safety

open Sys2Proof.Machine

/-! ## A device stuck at ready -/

section StuckReady

variable {s : State} {q : Instr} {rest : List Op} {b : Option Level} {x : Level}

/-- The iteration of a device stuck at ready: 8 steps, and the handshake stands at its exit, the device as it was (42_handshake R173). -/
theorem run_stuckReadyIteration (hs : s.seq = .running q (pollIterationOps ++ .pollDecide :: rest) b)
    (hl : linesPolling s.lines = true) (hd : s.device = .stuck x) (hx : x ≠ s.params.busyLevel) :
    run 8 s = .next
      { s with seq := .running q (handshakeExitOps ++ rest) none, trace := s.trace ++ iterTrace x } := by
  rw [run_pollIteration hs hl]
  simp [settle, decidePoll, deviceAnswer, deviceAfter, State.withSeq, hd, hx]

/-- WAIT_FOR_READY wherever it stands in a microprogram, on a device stuck at ready: one sample, 13 steps, and then what follows it, under
any bound (42_handshake R180). -/
theorem run_waitForReady_stuckReady (hs : s.seq = .running q (waitForReadyOps ++ rest) b)
    (hl : linesDriven s.lines = true) (hd : s.device = .stuck x) (hx : x ≠ s.params.busyLevel) :
    run 13 s = .next (settle q none rest
      { s with
        lines := linesAfterHandshake s.lines
        trace := s.trace ++ handshakeTrace [x]
        polls := pollsAfter s 0 }) := by
  calc run 13 s
    _ = run 10 _ := run_add 10 (run_handshakeEntry hs hl)
    _ = run 2 _ := run_add 2 (run_stuckReadyIteration rfl (linesPolling_linesInHandshake hl) hd hx)
    _ = _ := run_handshakeExit rfl rfl rfl
    _ = _ := congrArg _ (settle_congr_seq ?_)
  simp [State.withSeq, linesInHandshake, linesAfterHandshake, handshakeTrace]

/-- SEND wherever it stands in a microprogram, on a device stuck at ready: 31 steps, and then what follows it (41_transfer R152). -/
theorem run_settle_send_stuckReady {v : Byte} {m : Level} (hl : linesDriven s.lines = true) (hd : s.device = .stuck x)
    (hx : x ≠ s.params.busyLevel) :
    run 31 (settle q b (sendOps v m ++ rest) s) = .next (settle q none rest
      { s with lines := linesAfterSend v, trace := s.trace ++ sendTrace v m [x], polls := pollsAfter s 0 }) := by
  calc run 31 (settle q b (sendOps v m ++ rest) s)
    _ = run 31 (s.withSeq (.running q (sendOps v m ++ rest) b)) := by rw [settle_send]
    _ = run 13 _ := run_add 13 (run_sendNibbles rfl hl)
    _ = _ := run_waitForReady_stuckReady rfl (linesDriven_linesAfterNibbles v m) hd hx
    _ = _ := congrArg _ (settle_congr_seq ?_)
  simp [State.withSeq, sendTrace, linesAfterHandshake_linesAfterNibbles, pollsAfter]

end StuckReady

/-- A request that goes to one SEND, from a state `s1` with the lines, trace, parameters, device and POLLS of `s`, and then to statements that
only give the result, completes on a device stuck at ready. -/
theorem sendsAtOnce_of_start {i : Instr} {s s1 : State} {v : Byte} {m : Level} {r : Result} {ops tail : List Op}
    (hexec : exec i s = .next (start i ops s1)) (hops : ops = sendOps v m ++ tail) (hl : linesDriven s.lines = true)
    (hbus : SameBus s s1) (hpolls : s1.polls = s.polls)
    (hend : ∀ u : State, u.result = .empty → settle i none tail u = { u with seq := .idle, result := r }) :
    SendsAtOnce i s s1 v m r := by
  obtain ⟨hlines, htrace, hparams, hdevice⟩ := hbus
  intro x hd hx
  have hrun := run_settle_send_stuckReady (q := i) (b := none) (v := v) (m := m) (rest := tail)
    (s := s1.withResult .empty) (hlines ▸ hl) (hdevice.trans hd) (hparams ▸ hx)
  have hcleared : pollsAfter (s1.withResult .empty) 0 = pollsAfter s 0 := by
    simp only [pollsAfter, State.withResult_params, State.withResult_polls, hparams, hpolls]
  refine ⟨_, hexec, ?_⟩
  rw [start, hops, hrun, hend _ rfl, hcleared, State.withResult_trace, htrace]
  rfl

theorem polls_of_expansion {i : Instr} {s s1 : State} {v : Byte} (h : expansion s i = some (s1, v)) :
    s1.polls = s.polls := by
  rw [expansion_frame h]

/-- Settles O46: the one sample reads ready, so the loop is left at its first decision; each request goes to one SEND. -/
theorem stuckReadyDeviceNeverStopsATransfer : Obligations.StuckReadyDeviceNeverStopsATransfer := by
  refine ⟨fun s q rest b x hs hl hd hx => run_waitForReady_stuckReady hs hl hd hx, ?_⟩
  rintro s ⟨hs, hc, hidle⟩
  have hl := linesDriven_of_linesIdle hidle
  refine ⟨fun i s1 v h => ?_, fun v => ?_, fun v => ?_, fun v m => ?_⟩
  · exact sendsAtOnce_of_start (exec_of_expansion hs hc h) (List.append_nil _).symm hl (sameBus_of_expansion h)
      (polls_of_expansion h) fun _ => settle_nil_of_empty _
  · exact sendsAtOnce_of_start (takeRequest_of_ready hs hc) (List.append_nil _).symm hl (sameBus_refl s) rfl
      fun _ => settle_nil_of_empty _
  · exact sendsAtOnce_of_start (takeRequest_of_ready hs hc) rfl hl (sameBus_refl s) rfl fun _ _ => rfl
  · exact sendsAtOnce_of_start (runProcedure_of_ready hs hc) (List.append_nil _).symm hl (sameBus_refl s) rfl
      fun _ => settle_nil_of_empty _

/-! ## Before CONSTRUCT -/

theorem takeRequest_of_unbuilt {i : Instr} {body : State → State} {s : State} (hs : s.seq = .idle)
    (hc : s.constructed = false) : takeRequest i body s = .next (endWithRecord (.refusal (.notConstructed i)) s) := by
  simp [takeRequest, hs, hc]

theorem sendCommand_of_unbuilt {i : Instr} {upd : State → State} {v : Byte} {s : State} (hs : s.seq = .idle)
    (hc : s.constructed = false) : sendCommand i upd v s = .next (endWithRecord (.refusal (.notConstructed i)) s) :=
  takeRequest_of_unbuilt hs hc

/-- Every host request but CONSTRUCT looks at the block before it does anything (70_reset_and_hazards R272). -/
theorem exec_of_unbuilt {i : Instr} {s : State} (hs : s.seq = .idle) (hc : s.constructed = false)
    (hw : i.wellFormed = true) (hi : ∀ ver rs rw e d0 d1 d2 d3, i ≠ .construct ver rs rw e d0 d1 d2 d3) :
    exec i s = .next (endWithRecord (.refusal (.notConstructed i)) s) := by
  cases i with
  | construct ver rs rw e d0 d1 d2 d3 => exact absurd rfl (hi ver rs rw e d0 d1 d2 d3)
  | beginInit cols rows => exact takeRequest_of_unbuilt hs hc
  | write v => exact takeRequest_of_unbuilt hs hc
  | setCursor col row => rw [exec, execSetCursor, takeRequest_of_unbuilt hs hc]
  | createChar slot bitmap => exact takeRequest_of_unbuilt hs hc
  | write4bits n => cases hw
  | pulseEnable => cases hw
  | send v mode => cases hw
  | waitForReady => cases hw
  | powerOnSequence cols rows => cases hw
  | _ => exact sendCommand_of_unbuilt hs hc

/-- Settles O11: the refusal is recorded, and SEQ was Idle already. -/
theorem refusedBeforeConstruct : Obligations.RefusedBeforeConstruct := by
  intro i s hs hc hw hi
  rw [exec_of_unbuilt hs hc hw hi, endWithRecord_of_idle _ hs]

/-! ## The least durations -/

theorem minTime_nibTrace (n : Nibble) : minTime (nibTrace n) = 100 := rfl

theorem minTime_iterTraces (bs : List Level) : minTime (bs.flatMap iterTrace) = 60 * bs.length := by
  induction bs with
  | nil => rfl
  | cons b bs ih =>
    have hiter : minTime (iterTrace b) = 60 := rfl
    rw [List.flatMap_cons, minTime_append, hiter, ih, List.length_cons]
    omega

/-- Only the iterations of a handshake take time (70_reset_and_hazards R283). -/
theorem minTime_handshakeTrace (bs : List Level) : minTime (handshakeTrace bs) = 60 * bs.length := by
  simp [handshakeTrace, minTime_append, minTime, minTime_iterTraces]

theorem minTime_sendTrace (v : Byte) (m : Level) (bs : List Level) : minTime (sendTrace v m bs) = 200 + 60 * bs.length := by
  simp only [sendTrace, minTime_append, minTime, minTime_nibTrace, minTime_handshakeTrace]

/-- A command of step 8 takes its transfer and its fixed wait (40_init_sequencer R135). -/
theorem minTime_initTrace (busy : Level) (xs : List (Byte × Nat)) :
    minTime (initTrace busy xs) = (xs.map fun x => 5200 + 60 * (x.2 + 1)).sum := by
  induction xs with
  | nil => rfl
  | cons x xs ih =>
    obtain ⟨v, j⟩ := x
    simp only [initTrace, minTime_append, minTime_sendTrace, length_pollAnswers, minTime, ih, List.map_cons, List.sum_cons]
    omega

/-- A lone nibble takes its two waits and its fixed wait (40_init_sequencer R134). -/
theorem minTime_loneTrace (variant : Variant) : minTime (loneTrace variant) = 5100 * (loneNibbles variant).length := by
  cases variant <;> rfl

theorem minTime_powerOnTrace (variant : Variant) (busy : Level) (j1 j2 j3 j4 j5 : Nat) :
    minTime (powerOnTrace variant busy j1 j2 j3 j4 j5) =
      50000 + 5100 * (loneNibbles variant).length
        + ((fiveCommands j1 j2 j3 j4 j5).map fun x => 5200 + 60 * (x.2 + 1)).sum := by
  have hconfigure : minTime configureTrace = 50000 := rfl
  rw [powerOnTrace_eq, minTime_append, minTime_append, hconfigure, minTime_loneTrace, minTime_initTrace, Nat.add_assoc]

/-- Settles O58: the waits of a transfer, and the sums of the power-on sequence with four and with five lone nibbles. -/
theorem minimumDurations : Obligations.MinimumDurations :=
  ⟨minTime_sendTrace, fun busy =>
    ⟨minTime_powerOnTrace .v1 busy 0 0 0 0 0, minTime_powerOnTrace .v2 busy 0 0 0 0 0⟩⟩

end Sys2Proof.Safety
end
